-- ==== Sys2Proof/Word.lean ====
section
/-! DEFINITION. The word types of the block's data paths (R5, R6, R70): the widths the spec states, and no more.
Every value the spec calls a bit field is a bit vector of its width, unsigned (R6). -/

namespace Sys2Proof

/-- A byte of 8 bits (R6): a bus byte, a checksum, a user-register or identifier value. -/
abbrev Byte := BitVec 8

/-- A 16-bit raw code, or the operand of CRC_COMPUTE16 (R5, R71). -/
abbrev RawCode := BitVec 16

/-- A 24-bit host request word (R70). -/
abbrev ReqWord := BitVec 24

/-- The 4-bit OP field of a request and of a completion (R70, R76). -/
abbrev OpCode := BitVec 4

/-- A 7-bit slave address (R51). -/
abbrev BusAddr := BitVec 7

end Sys2Proof
end

