-- ==== Sys2Proof/Syntax.lean ====
section
/-! DEFINITION. The operations a host can request: one constructor per row of spec/opcode_table.json (R72). Operands
are the fields of R71, already assembled; a register or an immediate of another shape does not exist. -/

namespace Sys2Proof

/-- The seven operations of R72. -/
inductive Instr where
  /-- INIT (OP 0x0, R150). -/
  | init
  /-- READ_USER_REG (OP 0x1, R120). -/
  | readUserReg
  /-- READ_DEVICE_ID (OP 0x2, R121). -/
  | readDeviceId
  /-- READ_HUMIDITY (OP 0x3, R152). -/
  | readHumidity
  /-- READ_TEMPERATURE (OP 0x4, R156). -/
  | readTemperature
  /-- CRC_UPDATE STATE, BYTE (OP 0x8, R102). -/
  | crcUpdate (state byte : Byte)
  /-- CRC_COMPUTE16 VALUE (OP 0x9, R103). -/
  | crcCompute16 (value : RawCode)
  deriving DecidableEq, Repr

end Sys2Proof
end

