-- ==== Sys2Proof/WellFormed.lean ====
section
/-! DEFINITION. When the fields of a request word are well formed (R70 to R74). The operands of `Instr` have exactly
the widths of R71, so every term of `Instr` has well-formed fields; what can be ill formed is a word of HOSTREQ24,
split into its three fields, and R74 lists the three ways. -/

namespace Sys2Proof

/-- The three fields of HOSTREQ24 (R70). -/
structure ReqFields where
  /-- OP, bits [23:20]. -/
  op : OpCode
  /-- RSV, bits [19:16]. -/
  rsv : BitVec 4
  /-- OPERAND, bits [15:0]. -/
  operand : BitVec 16
  deriving DecidableEq, Repr

/-- The operation takes an operand: the CRC operations 0x8 and 0x9 (R71). -/
def ReqFields.takesOperand (f : ReqFields) : Bool := f.op == 0x8 || f.op == 0x9

/-- OP is a code of the map of R72. -/
def ReqFields.opAssigned (f : ReqFields) : Bool :=
  f.op == 0x0 || f.op == 0x1 || f.op == 0x2 || f.op == 0x3 || f.op == 0x4 || f.takesOperand

/-- RSV is 0 (R70, R74). -/
def ReqFields.rsvZero (f : ReqFields) : Bool := f.rsv == 0

/-- OPERAND is 0 for an operation that takes none (R71, R74). -/
def ReqFields.operandAllowed (f : ReqFields) : Bool := f.takesOperand || f.operand == 0

/-- The fields are those of a legal request word (R74). -/
def ReqFields.wf (f : ReqFields) : Bool := f.opAssigned && f.rsvZero && f.operandAllowed

end Sys2Proof
end

