-- ==== Sys2Proof/Decode.lean ====
section
/-! DEFINITION. Decoding a 24-bit request word (R70 to R75), total and rejecting by name, and after it the encoder,
both written from the field map of R70 and the opcode map of R72. -/

namespace Sys2Proof

/-! ## The opcode map (R72) -/

/-- OP of INIT. -/
abbrev opInit : OpCode := 0x0
/-- OP of READ_USER_REG. -/
abbrev opReadUserReg : OpCode := 0x1
/-- OP of READ_DEVICE_ID. -/
abbrev opReadDeviceId : OpCode := 0x2
/-- OP of READ_HUMIDITY. -/
abbrev opReadHumidity : OpCode := 0x3
/-- OP of READ_TEMPERATURE. -/
abbrev opReadTemperature : OpCode := 0x4
/-- OP of CRC_UPDATE. -/
abbrev opCrcUpdate : OpCode := 0x8
/-- OP of CRC_COMPUTE16. -/
abbrev opCrcCompute16 : OpCode := 0x9

/-! ## Fields and words (R70) -/

/-- OP = word[23:20], also of an illegal word (R74). -/
def opField (w : ReqWord) : OpCode := w.extractLsb' 20 4

/-- The fields of a word: OP [23:20], RSV [19:16], OPERAND [15:0] (R70). -/
def fieldsOfWord (w : ReqWord) : ReqFields :=
  { op := opField w, rsv := w.extractLsb' 16 4, operand := w.extractLsb' 0 16 }

/-- The word with the given fields (R70). -/
def wordOfFields (f : ReqFields) : ReqWord := f.op ++ f.rsv ++ f.operand

/-! ## Decoding (R73) -/

/-- Why a word is ILLEGAL: the three items of R74, in the order R73 tests them. -/
inductive Illegal where
  /-- RSV ≠ 0. -/
  | reservedField
  /-- OP is one of 0x5, 0x6, 0x7, 0xA to 0xF. -/
  | reservedOp
  /-- OPERAND ≠ 0 for an operation that takes none. -/
  | operandNotZero
  deriving DecidableEq, Repr

/-- An operation without operand is that operation only if OPERAND is 0 (R71, R73). -/
def withoutOperand (operand : BitVec 16) (i : Instr) : Except Illegal Instr :=
  if operand = 0 then .ok i else .error .operandNotZero

/-- R73 on the fields: RSV first, then OP, then OPERAND. -/
def decodeFields (f : ReqFields) : Except Illegal Instr :=
  if f.rsv ≠ 0 then .error .reservedField
  else if f.op = opCrcUpdate then
    .ok (.crcUpdate (f.operand.extractLsb' 8 8) (f.operand.extractLsb' 0 8))
  else if f.op = opCrcCompute16 then .ok (.crcCompute16 f.operand)
  else if f.op = opInit then withoutOperand f.operand .init
  else if f.op = opReadUserReg then withoutOperand f.operand .readUserReg
  else if f.op = opReadDeviceId then withoutOperand f.operand .readDeviceId
  else if f.op = opReadHumidity then withoutOperand f.operand .readHumidity
  else if f.op = opReadTemperature then withoutOperand f.operand .readTemperature
  else .error .reservedOp

/-- `Decode(word)` of R73. -/
def decode (w : ReqWord) : Except Illegal Instr := decodeFields (fieldsOfWord w)

/-- The instruction the decoder reads from a word numbered as spec/opcode_table.json numbers it: one word of 24 bits
(R75), bit 0 the least significant; the bits above `nbits` are 0. A number that needs more than 24 bits is no request
word. -/
def decodeTableWord (nbits w : Nat) : Option Instr :=
  let v := w % 2 ^ nbits
  if v < 2 ^ 24 then
    match decode (BitVec.ofNat 24 v) with
    | .ok i => some i
    | .error _ => none
  else none

/-! ## Encoding (R70 to R72) -/

/-- The opcode of an operation (R72). -/
def opcode : Instr → OpCode
  | .init => opInit
  | .readUserReg => opReadUserReg
  | .readDeviceId => opReadDeviceId
  | .readHumidity => opReadHumidity
  | .readTemperature => opReadTemperature
  | .crcUpdate _ _ => opCrcUpdate
  | .crcCompute16 _ => opCrcCompute16

/-- The OPERAND field of an operation (R71): STATE above BYTE, VALUE whole, otherwise 0. -/
def operandField : Instr → BitVec 16
  | .init => 0
  | .readUserReg => 0
  | .readDeviceId => 0
  | .readHumidity => 0
  | .readTemperature => 0
  | .crcUpdate state byte => state ++ byte
  | .crcCompute16 value => value

/-- The fields of an operation's word, RSV being 0 (R70). -/
def encodeFields (i : Instr) : ReqFields :=
  { op := opcode i, rsv := 0, operand := operandField i }

/-- The word of an operation (R70, R82). -/
def encode (i : Instr) : ReqWord := wordOfFields (encodeFields i)

end Sys2Proof
end

