-- ==== Sys2Proof/Config.lean ====
section
/-! DEFINITION. The implementation parameters of R5. A parameter the spec gives one value is a constant here; a
parameter the spec lets vary is a field of `Params`, held in State so that a statement over every state is a
statement over every value of it; the address, for which the spec fixes no value at all, is a constant with no
body where a run from reset needs one. -/

namespace Sys2Proof

/-- TEMP_CMD (R5, R78, D7): which of the two temperature commands the temperature path sends. -/
inductive TempCmd where
  /-- 0xE0, "temperature-from-humidity-cycle" (R78): the spec's default. -/
  | fromHumidityCycle
  /-- 0xE3, "temperature-direct" (R78). -/
  | direct
  deriving DecidableEq, Repr

/-- ID2_CRC_CHAIN (R5, R106, D11): what the checksum state is between the two groups of identifier sequence 2. -/
inductive Id2CrcChain where
  /-- The state is reset to zero before the second group: the spec's default. -/
  | resetPerGroup
  /-- The state is carried from the first group into the second. -/
  | carried
  deriving DecidableEq, Repr

/-- HUM_RAW_REPORT (R5, R155, D12): which raw code a humidity success reports. -/
inductive HumRawReport where
  /-- The code with its two low bits cleared: the spec's default. -/
  | masked
  /-- The code as read. -/
  | unmasked
  deriving DecidableEq, Repr

/-- The parameters of R5 that may differ from block to block, constant for the lifetime of the block (R51, R232). -/
structure Params where
  /-- SLAVE_ADDR, 7 bits: OPEN (R5, D8). -/
  slaveAddr : BusAddr
  /-- TEMP_CMD (R5). -/
  tempCmd : TempCmd
  /-- ID2_CRC_CHAIN (R5). -/
  id2CrcChain : Id2CrcChain
  /-- HUM_RAW_REPORT (R5). -/
  humRawReport : HumRawReport
  deriving DecidableEq, Repr

/-- FREE VALUE, DESIGN CHOICE (log 5): the slave address of the block that a run from reset is about. R5 calls it
OPEN, so it has no body and nothing can be proved of its value. Safe. -/
opaque Config.slaveAddr : BusAddr

/-- The parameters at reset: the address is the free value, every other one the spec's default (R5; log 4). -/
def Config.params : Params :=
  { slaveAddr := Config.slaveAddr
    tempCmd := .fromHumidityCycle
    id2CrcChain := .resetPerGroup
    humRawReport := .masked }

/-- SETTLE_MS = 25 milliseconds (R5, R83). -/
def Config.settleMs : Nat := 25

/-- CRC_POLY, the low byte of 0x131 (R5). -/
def Config.crcPoly : Byte := 0x31

/-- CRC_INIT, the zero seed (R5). -/
def Config.crcInit : Byte := 0x00

end Sys2Proof
end

