-- ==== Sys2Proof/Machine/State.lean ====
section
/-! DEFINITION. What the block holds and what passes through its ports: the sequencer's states (R21), the input events
(R8), the bus descriptors (R80), the completion record (R76), the outputs (R7), the state (R20), the faults (R144)
and the state after reset (R230). -/

namespace Sys2Proof.Machine

open Sys2Proof

/-- The eight values of SEQ_STATE (R21), by name; `SeqState.code` gives the 3 bits. -/
inductive SeqState where
  /-- 0: no request in flight. -/
  | idle
  /-- 1: READ_HUMIDITY, stage 1: waits for the BusDone of the 0xE5 write. -/
  | humCmdSent
  /-- 2: READ_HUMIDITY, stage 2: waits for TimerExpired. -/
  | humWaitSettle
  /-- 3: READ_HUMIDITY, stage 3: waits for the BusDone of the 3-byte read. -/
  | humReading
  /-- 4: READ_TEMPERATURE: waits for its BusDone. -/
  | tempXfer
  /-- 5: READ_USER_REG: waits for its BusDone. -/
  | uregXfer
  /-- 6: READ_DEVICE_ID, sequence 1. -/
  | idSeq1
  /-- 7: READ_DEVICE_ID, sequence 2. -/
  | idSeq2
  deriving DecidableEq, Repr

/-- The payload of a timer run (R83). Nothing examines the payload of an expiry (R154), so an event may carry any
(log 10). -/
inductive Payload where
  /-- The constant tag CTX_HUM. -/
  | ctxHum
  /-- Any other payload that a timer service might hand back. -/
  | other (tag : Nat)
  deriving DecidableEq, Repr

/-- An input event (R8). -/
inductive Event where
  /-- The host sends a request word (R70). -/
  | hostReq (word : ReqWord)
  /-- The bus scheduler completes the outstanding transaction; `rdata` means nothing when `ok` is false (R53). -/
  | busDone (ok : Bool) (rdata : List Byte)
  /-- The timer's one expiry (R210). -/
  | timerExpired (payload : Payload)
  deriving DecidableEq, Repr

/-- The direction of a transfer, seen from the block (R80). -/
inductive Dir where
  /-- W: write to the device. -/
  | write
  /-- R: read from the device into BUF. -/
  | read
  deriving DecidableEq, Repr

/-- A transfer descriptor `Xfer(addr, dir, len, stop, wdata)` (R80); `wdata` is empty for a read. -/
structure Xfer where
  /-- Always SLAVE_ADDR. -/
  addr : BusAddr
  /-- W or R. -/
  dir : Dir
  /-- The number of bytes. -/
  len : Nat
  /-- True: a stop condition ends the transfer. -/
  stop : Bool
  /-- The bytes to write, in bus order. -/
  wdata : List Byte
  deriving DecidableEq, Repr

/-- The STATUS of a completion (R77); the reserved codes 6 and 7 have no name, so none can be emitted. -/
inductive Status where
  /-- 0: the operation completed and its result fields are valid. -/
  | ok
  /-- 1: the bus scheduler reported failure. -/
  | busError
  /-- 2: a received checksum byte did not match. -/
  | dataCorruption
  /-- 3: a sequencer request arrived while another was in flight. -/
  | busy
  /-- 4: the request word is illegal. -/
  | illegal
  /-- 5: a sequencer request arrived before INIT. -/
  | notInit
  deriving DecidableEq, Repr

/-- The completion record `Cpl(OP, STATUS, DATA, RAW, VALUE)` (R76), VALUE being the exact rational (R182). -/
structure Completion where
  /-- The OP field of the request this completes. -/
  op : OpCode
  /-- The outcome. -/
  status : Status
  /-- The byte result. -/
  data : Byte
  /-- The raw code or the raw sentinel. -/
  raw : RawCode
  /-- The physical value or the sentinel −1. -/
  value : Rat
  deriving DecidableEq, Repr

/-- An output of the block (R7). -/
inductive Output where
  /-- One bus-transaction request (R52). -/
  | busReq (xfers : List Xfer)
  /-- The request for the one-shot timer (R83). -/
  | timerCreate
  /-- Arm the timer (R83). -/
  | timerStart (durationMs : Nat) (payload : Payload)
  /-- One completion record to the host (R76). -/
  | cpl (c : Completion)
  deriving DecidableEq, Repr

/-- The machine. The first four fields are the spec's whole state (R20); the last three are the model's own: the
parameters (R5, log 4), the events still to come (log 1) and the outputs so far (log 2). -/
structure State where
  /-- SEQ_STATE (R21). -/
  seqState : SeqState
  /-- INIT_DONE (R23). -/
  initDone : Bool
  /-- ERR_SPURIOUS (R24). -/
  errSpurious : Bool
  /-- BUF[0..7] (R25). -/
  buf : Vector Byte 8
  /-- The parameters of R5; no step writes them. -/
  params : Params
  /-- The input events still to come, oldest first. -/
  inputs : List Event
  /-- Every output emitted so far, oldest first; no step reads them. -/
  outputs : List Output
  deriving DecidableEq, Repr

/-- The model faults of R140, raised when the environment breaks its contract (R206). Each carries the state the
hardware is left in: the event consumed, ERR_SPURIOUS set, nothing else changed (R144); "in hardware the block goes
on" from there (log 7). Safe: the model stops where the hardware goes on. -/
inductive Fault where
  /-- Raised by a BusDone while no bus transaction is outstanding (R144). Safe. -/
  | spuriousBusDone (after : State)
  /-- Raised by a BusDone with ok = 1 whose rdata has the wrong length (R144). Safe. -/
  | badReadLength (after : State)
  /-- Raised by a TimerExpired outside HUM_WAIT_SETTLE (R144). Safe. -/
  | spuriousTimer (after : State)
  deriving DecidableEq, Repr

/-- Why an instruction has no meaning. Every instruction of this hardware has one, so nothing raises it. -/
inductive Refusal where
  /-- Raised by an arm of exec whose instruction is not modelled; no arm is one. Safe. -/
  | notModelled (mnemonic : String)
  deriving DecidableEq, Repr

/-- What a meaning or a step answers. -/
abbrev Result := Host.Outcome State Fault Refusal

/-- BUF at reset. The spec leaves it unspecified (R230): zeros are a DESIGN CHOICE (log 6), unsafe by its form and
harmless by R25, since no step reads a byte of BUF that it did not write; `State.afterReset` takes any contents. -/
def State.resetBuf : Vector Byte 8 := #v[0, 0, 0, 0, 0, 0, 0, 0]

/-- The machine right after reset (R230): IDLE, not initialised, no spurious event seen, nothing emitted, no event
waiting. -/
def State.reset : State :=
  { seqState := .idle
    initDone := false
    errSpurious := false
    buf := State.resetBuf
    params := Config.params
    inputs := []
    outputs := [] }

end Sys2Proof.Machine
end

