-- ==== Sys2Proof/Machine/Flags.lean ====
section
/-! DEFINITION. The outcome flags. The block has no condition codes; "the only outcome flags a program sees are the
STATUS field of each completion record and the sentinel values it carries" (R27). This file holds the status codes
(R77), the sentinels (R76, R201) and the two forms of completion: a success and a failure. -/

namespace Sys2Proof.Machine

open Sys2Proof

/-- The 3-bit code of a status (R77). -/
def Status.code : Status → BitVec 3
  | .ok => 0
  | .busError => 1
  | .dataCorruption => 2
  | .busy => 3
  | .illegal => 4
  | .notInit => 5

/-- The RAW half of an operation's sentinel (R76, R201): 0xFFFF for READ_HUMIDITY, else 0. -/
def sentinelRaw (op : OpCode) : RawCode := if op = opReadHumidity then 0xFFFF else 0

/-- The VALUE half of an operation's sentinel (R76, R201): −1 for the two measurements, else 0. -/
def sentinelValue (op : OpCode) : Rat :=
  if op = opReadHumidity ∨ op = opReadTemperature then -1 else 0

/-- A failed or refused request's record: DATA 0 and the operation's sentinel (R76, R141, R142, R201). -/
def failedCpl (op : OpCode) (status : Status) : Completion :=
  { op := op, status := status, data := 0, raw := sentinelRaw op, value := sentinelValue op }

/-- The record of a success whose result is a byte; 0 for INIT, which has none (R76). -/
def byteCpl (op : OpCode) (data : Byte) : Completion :=
  { op := op, status := .ok, data := data, raw := 0, value := 0 }

/-- The record of a successful measurement (R76). -/
def measurementCpl (op : OpCode) (raw : RawCode) (value : Rat) : Completion :=
  { op := op, status := .ok, data := 0, raw := raw, value := value }

/-- The record of an illegal word: its OP field, everything else 0 (R74, R202). -/
def illegalCpl (w : ReqWord) : Completion :=
  { op := opField w, status := .illegal, data := 0, raw := 0, value := 0 }

end Sys2Proof.Machine
end

