-- ==== Sys2Proof/Machine/Operands.lean ====
section
/-! DEFINITION. The operand forms of the block: assembling bytes into codes (R50), the transfer buffer (R25), the
command bytes (R78) and the transactions (R81), which are the whole of what the block puts on the bus. -/

namespace Sys2Proof.Machine

open Sys2Proof

/-! ## Bytes and codes -/

/-- `be16(b0, b1)`: the first byte received is the most significant (R7, R50). -/
def be16 (b0 b1 : Byte) : RawCode := b0 ++ b1

/-- The high byte v[15:8] of a 16-bit value. -/
def highByte (v : RawCode) : Byte := v.extractLsb' 8 8

/-- The low byte v[7:0] of a 16-bit value. -/
def lowByte (v : RawCode) : Byte := v.extractLsb' 0 8

/-- `MaskH(raw) = raw & 0xFFFC` (R158). -/
def maskH (raw : RawCode) : RawCode := raw &&& 0xFFFC

/-- BUF after a successful read: rdata[i] at i < len(rdata), every other byte as before (R25). -/
def fillBuf (buf : Vector Byte 8) (rdata : List Byte) : Vector Byte 8 :=
  #v[rdata.getD 0 buf[0], rdata.getD 1 buf[1], rdata.getD 2 buf[2], rdata.getD 3 buf[3],
     rdata.getD 4 buf[4], rdata.getD 5 buf[5], rdata.getD 6 buf[6], rdata.getD 7 buf[7]]

/-- BUF[0..5], the bytes of an identifier sequence-2 read (R121). -/
def firstSix (buf : Vector Byte 8) : Vector Byte 6 := #v[buf[0], buf[1], buf[2], buf[3], buf[4], buf[5]]

/-! ## SEQ_STATE as bits, and what it says is outstanding -/

/-- The 3-bit code of a sequencer state (R21). -/
def SeqState.code : SeqState → BitVec 3
  | .idle => 0
  | .humCmdSent => 1
  | .humWaitSettle => 2
  | .humReading => 3
  | .tempXfer => 4
  | .uregXfer => 5
  | .idSeq1 => 6
  | .idSeq2 => 7

/-- The sequencer state of a 3-bit code; every code is used (R21). -/
def SeqState.ofCode (c : BitVec 3) : SeqState :=
  if c = 0 then .idle
  else if c = 1 then .humCmdSent
  else if c = 2 then .humWaitSettle
  else if c = 3 then .humReading
  else if c = 4 then .tempXfer
  else if c = 5 then .uregXfer
  else if c = 6 then .idSeq1
  else .idSeq2

/-- `ReadLen` of R140: how many bytes a successful BusDone must carry; none where no transaction is outstanding
(R22). -/
def SeqState.readLen : SeqState → Option Nat
  | .idle => none
  | .humCmdSent => some 0
  | .humWaitSettle => none
  | .humReading => some 3
  | .tempXfer => some 2
  | .uregXfer => some 1
  | .idSeq1 => some 8
  | .idSeq2 => some 6

/-! ## Command bytes and transactions -/

/-- The byte of TEMP_CMD (R78). -/
def tempCmdByte : TempCmd → Byte
  | .fromHumidityCycle => 0xE0
  | .direct => 0xE3

/-- `Xfer(SLAVE_ADDR, W, len, stop, wdata)` (R80). -/
def writeXfer (p : Params) (stop : Bool) (wdata : List Byte) : Xfer :=
  { addr := p.slaveAddr, dir := .write, len := wdata.length, stop := stop, wdata := wdata }

/-- `Xfer(SLAVE_ADDR, R, len, 1, -)`: every read ends its transaction with a stop (R80, R81). -/
def readXfer (p : Params) (len : Nat) : Xfer :=
  { addr := p.slaveAddr, dir := .read, len := len, stop := true, wdata := [] }

/-- READ_USER_REG (R81). -/
def userRegXfers (p : Params) : List Xfer := [writeXfer p false [0xE7], readXfer p 1]

/-- READ_DEVICE_ID, sequence 1 (R81). -/
def idSeq1Xfers (p : Params) : List Xfer := [writeXfer p false [0xFA, 0x0F], readXfer p 8]

/-- READ_DEVICE_ID, sequence 2 (R81). -/
def idSeq2Xfers (p : Params) : List Xfer := [writeXfer p false [0xFC, 0xC9], readXfer p 6]

/-- READ_HUMIDITY, stage 1: the command write, with a stop (R81). -/
def humCommandXfers (p : Params) : List Xfer := [writeXfer p true [0xE5]]

/-- READ_HUMIDITY, stage 3: the read, with no write before it (R81). -/
def humReadXfers (p : Params) : List Xfer := [readXfer p 3]

/-- READ_TEMPERATURE (R81). -/
def tempXfers (p : Params) : List Xfer := [writeXfer p false [tempCmdByte p.tempCmd], readXfer p 2]

end Sys2Proof.Machine
end

