-- ==== Sys2Proof/Machine/Ops.lean ====
section
/-! DEFINITION. The named operations over the state: emitting, moving the sequencer, filling the buffer, ending a
request well or badly (R207: the block's one form of error entry; R208: there is no return from one), refusing a
request (R141, R142), the fault of an unexpected event (R144), and a reset in the middle of a run (R230). -/

namespace Sys2Proof.Machine

open Sys2Proof

/-- `emit`: the outputs of a step leave in the order written (R7). -/
def State.emit (s : State) (outs : List Output) : State := { s with outputs := s.outputs ++ outs }

/-- `SEQ_STATE <- q`. -/
def State.goto (s : State) (q : SeqState) : State := { s with seqState := q }

/-- `INIT_DONE <- 1`. -/
def State.setInitDone (s : State) : State := { s with initDone := true }

/-- `ERR_SPURIOUS <- 1` (R144). -/
def State.setErrSpurious (s : State) : State := { s with errSpurious := true }

/-- `BUF[i] <- rdata[i]` for every i < len(rdata) (R25). -/
def State.storeRead (s : State) (rdata : List Byte) : State := { s with buf := fillBuf s.buf rdata }

/-- One completion that leaves the sequencer where it is. -/
def State.complete (s : State) (c : Completion) : State := s.emit [.cpl c]

/-- The end of an in-flight request: its completion, then `SEQ_STATE <- IDLE` (R207, R208). -/
def State.finish (s : State) (c : Completion) : State := (s.complete c).goto .idle

/-- Error entry (R203, R207), the one shared operation: the request's completion with the error's STATUS and the
operation's sentinel, then `SEQ_STATE <- IDLE`; nothing saved, no mode changed, no later stage. -/
def State.failRequest (s : State) (op : OpCode) (status : Status) : State := s.finish (failedCpl op status)

/-- A refusal (R141, R142): the completion with the operation's sentinel, and no other change. -/
def State.refuse (s : State) (op : OpCode) (status : Status) : State := s.complete (failedCpl op status)

/-- Start a stage: send its bus request and wait in the state that names it (R52, R58). -/
def State.startBus (s : State) (xfers : List Xfer) (q : SeqState) : State := (s.emit [.busReq xfers]).goto q

/-- The checks on a sequencer request (R140, R143): BUSY unless IDLE, else NOT_INIT unless initialised, else the
request's own first stage. -/
def State.request (s : State) (op : OpCode) (xfers : List Xfer) (q : SeqState) : State :=
  if s.seqState ≠ .idle then s.refuse op .busy
  else if s.initDone = false then s.refuse op .notInit
  else s.startBus xfers q

/-- An event that breaks the environment's contract (R144, R206): ERR_SPURIOUS is set, nothing else changes, nothing
is emitted, and the model raises the fault, which carries that state. -/
def State.unexpected (s : State) (fault : State → Fault) : Result := .fault (fault s.setErrSpurious)

/-- Reset in the middle of a run (R230): the four registers take their reset values, BUF any value at all (`buf`);
the request in flight is abandoned without a completion, and the environment's events still come. -/
def State.afterReset (s : State) (buf : Vector Byte 8) : State :=
  { s with seqState := .idle, initDone := false, errSpurious := false, buf := buf }

end Sys2Proof.Machine
end

