-- ==== Sys2Proof/Machine/Checksum.lean ====
section
/-! DEFINITION. The checksum engine (spec/40_checksum.md): `crc8_update`, `compute16`, the three checks built on them,
and the two CRC operations. The shift-register form is the spec's reading of the document (R100, log 12). -/

namespace Sys2Proof.Machine

open Sys2Proof

/-! ## The functions (R100, R101) -/

/-- One shift of R100, most significant bit first: the x⁸ term is the bit shifted out. -/
def crcShift (r : Byte) : Byte := if r.getLsbD 7 then (r <<< 1) ^^^ Config.crcPoly else r <<< 1

/-- `n` shifts. -/
def crcShifts : Nat → Byte → Byte
  | 0, r => r
  | n + 1, r => crcShifts n (crcShift r)

/-- `crc8_update(s, b)` (R100): XOR the byte into the state, then eight shifts. -/
def crc8Update (s b : Byte) : Byte := crcShifts 8 (s ^^^ b)

/-- `compute16(v)` (R101): the high byte, then the low byte, from the zero seed. -/
def compute16 (v : RawCode) : Byte := crc8Update (crc8Update Config.crcInit (highByte v)) (lowByte v)

/-! ## The checks (R104 to R107) -/

/-- `CheckMeasurement(b0, b1, c)` (R104), on the code as read. -/
def checkMeasurement (b0 b1 c : Byte) : Bool := compute16 (be16 b0 b1) == c

/-- The loop of R105 over (data, checksum) pairs: the state is carried and only data bytes enter it. -/
def checkPairs : Byte → List (Byte × Byte) → Bool
  | _, [] => true
  | s, (d, c) :: rest =>
    let s' := crc8Update s d
    if s' ≠ c then false else checkPairs s' rest

/-- `CheckId1(r[0..7])` (R105). -/
def checkId1 (r : Vector Byte 8) : Bool :=
  checkPairs Config.crcInit [(r[0], r[1]), (r[2], r[3]), (r[4], r[5]), (r[6], r[7])]

/-- `CheckId2(r[0..5])` (R106), group 1 before group 2; the chaining is the parameter. -/
def checkId2 (chain : Id2CrcChain) (r : Vector Byte 6) : Bool :=
  let s1 := crc8Update (crc8Update Config.crcInit r[0]) r[1]
  if s1 ≠ r[2] then false
  else
    let seed := match chain with
      | .resetPerGroup => Config.crcInit
      | .carried => s1
    crc8Update (crc8Update seed r[3]) r[4] == r[5]

/-! ## The operations (R102, R103) -/

/-- CRC_UPDATE STATE, BYTE (R102): accepted in every state; only its completion. -/
def execCrcUpdate (state byte : Byte) (s : State) : Result :=
  .next (s.complete (byteCpl opCrcUpdate (crc8Update state byte)))

/-- CRC_COMPUTE16 VALUE (R103): accepted in every state; only its completion. -/
def execCrcCompute16 (value : RawCode) (s : State) : Result :=
  .next (s.complete (byteCpl opCrcCompute16 (compute16 value)))

end Sys2Proof.Machine
end

