-- ==== Sys2Proof/Machine/RegisterAccess.lean ====
section
/-! DEFINITION. The register-access operations (spec/41_register_access.md): READ_USER_REG and READ_DEVICE_ID, the
request step of each and its completion steps. -/

namespace Sys2Proof.Machine

open Sys2Proof

/-! ## READ_USER_REG (R120) -/

/-- READ_USER_REG, request step. -/
def execReadUserReg (s : State) : Result :=
  .next (s.request opReadUserReg (userRegXfers s.params) .uregXfer)

/-- READ_USER_REG, completion step, in UREG_XFER: the byte as read, no checksum. -/
def userRegDone (ok : Bool) (rdata : List Byte) (s : State) : State :=
  if ok then
    let s1 := s.storeRead rdata
    s1.finish (byteCpl opReadUserReg s1.buf[0])
  else s.failRequest opReadUserReg .busError

/-! ## READ_DEVICE_ID (R121, R122) -/

/-- The 32-bit value assembled big-endian from the data bytes of sequence 2 (R122). -/
def id32 (r : Vector Byte 6) : BitVec 32 := r[0] ++ r[1] ++ r[3] ++ r[4]

/-- `Identifier(r[0..5])`: the most significant byte of the assembled value (R122). -/
def identifier (r : Vector Byte 6) : Byte := (id32 r).extractLsb' 24 8

/-- READ_DEVICE_ID, request step: sequence 1. -/
def execReadDeviceId (s : State) : Result :=
  .next (s.request opReadDeviceId (idSeq1Xfers s.params) .idSeq1)

/-- READ_DEVICE_ID, completion of sequence 1, in ID_SEQ1: sequence 2 is sent only after a good check. -/
def idSeq1Done (ok : Bool) (rdata : List Byte) (s : State) : State :=
  if ok then
    let s1 := s.storeRead rdata
    if checkId1 s1.buf then s1.startBus (idSeq2Xfers s1.params) .idSeq2
    else s1.failRequest opReadDeviceId .dataCorruption
  else s.failRequest opReadDeviceId .busError

/-- READ_DEVICE_ID, completion of sequence 2, in ID_SEQ2. -/
def idSeq2Done (ok : Bool) (rdata : List Byte) (s : State) : State :=
  if ok then
    let s1 := s.storeRead rdata
    if checkId2 s1.params.id2CrcChain (firstSix s1.buf) then
      s1.finish (byteCpl opReadDeviceId (identifier (firstSix s1.buf)))
    else s1.failRequest opReadDeviceId .dataCorruption
  else s.failRequest opReadDeviceId .busError

end Sys2Proof.Machine
end

