-- ==== Sys2Proof/Machine/Conversion.lean ====
section
/-! DEFINITION. Unit conversion (spec/43_conversion.md), in exact rationals, and the representation of VALUE at the
completion port (R182). -/

namespace Sys2Proof.Machine

open Sys2Proof

/-- `ConvH(m) = (125·m − 393216) / 65536`, percent relative humidity (R180). -/
def convH (m : RawCode) : Rat := (125 * (m.toNat : Rat) - 393216) / 65536

/-- `ConvT(r) = (17572·r)/6553600 − 937/20`, degrees Celsius (R181). -/
def convT (r : RawCode) : Rat := (17572 * (r.toNat : Rat)) / 6553600 - 937 / 20

/-- A completion as a host with another representation of VALUE gets it: (OP, STATUS, DATA, RAW, VALUE). -/
structure Delivered (V : Type) where
  /-- OP. -/
  op : OpCode
  /-- STATUS. -/
  status : Status
  /-- DATA. -/
  data : Byte
  /-- RAW. -/
  raw : RawCode
  /-- VALUE in the representation V. -/
  value : V
  deriving DecidableEq, Repr

/-- VALUE_REPR (R182, log 8): a function ℚ → V of the exact value alone, about which nothing is assumed; the default
is the identity. -/
def Completion.delivered {V : Type} (repr : Rat → V) (c : Completion) : Delivered V :=
  { op := c.op, status := c.status, data := c.data, raw := c.raw, value := repr c.value }

end Sys2Proof.Machine
end

