-- ==== Sys2Proof/Machine/Sequencer.lean ====
section
/-! DEFINITION. The measurement sequencer (spec/42_sequencer.md): INIT, the three stages of the humidity path and the
temperature path. -/

namespace Sys2Proof.Machine

open Sys2Proof

/-! ## INIT (R150) -/

/-- INIT: the first one creates the timer and sets INIT_DONE; every one completes OK, in every SEQ_STATE. -/
def execInit (s : State) : Result :=
  let s1 := if s.initDone = false then (s.emit [.timerCreate]).setInitDone else s
  .next (s1.complete (byteCpl opInit 0))

/-! ## READ_HUMIDITY (R152 to R155) -/

/-- READ_HUMIDITY, request step: stage 1, the command write (R152). -/
def execReadHumidity (s : State) : Result :=
  .next (s.request opReadHumidity (humCommandXfers s.params) .humCmdSent)

/-- Stage-1 completion, in HUM_CMD_SENT (R153): arm the timer for SETTLE_MS. Its read is empty. -/
def humCommandDone (ok : Bool) (rdata : List Byte) (s : State) : State :=
  if ok then
    ((s.storeRead rdata).emit [.timerStart Config.settleMs .ctxHum]).goto .humWaitSettle
  else s.failRequest opReadHumidity .busError

/-- Stage 2, the expiry in HUM_WAIT_SETTLE (R154): the 3-byte read; the payload is not examined. -/
def settleDone (s : State) : State := s.startBus (humReadXfers s.params) .humReading

/-- The RAW a humidity success reports, by HUM_RAW_REPORT (R155). -/
def reportedRaw (mode : HumRawReport) (raw : RawCode) : RawCode :=
  match mode with
  | .masked => maskH raw
  | .unmasked => raw

/-- Stage-3 completion, in HUM_READING (R155): check the code as read, then mask, then convert. -/
def humReadDone (ok : Bool) (rdata : List Byte) (s : State) : State :=
  if ok then
    let s1 := s.storeRead rdata
    let raw := be16 s1.buf[0] s1.buf[1]
    if checkMeasurement s1.buf[0] s1.buf[1] s1.buf[2] then
      s1.finish (measurementCpl opReadHumidity (reportedRaw s1.params.humRawReport raw) (convH (maskH raw)))
    else s1.failRequest opReadHumidity .dataCorruption
  else s.failRequest opReadHumidity .busError

/-! ## READ_TEMPERATURE (R156, R157) -/

/-- READ_TEMPERATURE, request step: one transaction, TEMP_CMD then two bytes (R156). -/
def execReadTemperature (s : State) : Result :=
  .next (s.request opReadTemperature (tempXfers s.params) .tempXfer)

/-- Temperature completion, in TEMP_XFER (R157): the code unmasked, no checksum. -/
def tempDone (ok : Bool) (rdata : List Byte) (s : State) : State :=
  if ok then
    let s1 := s.storeRead rdata
    let raw := be16 s1.buf[0] s1.buf[1]
    s1.finish (measurementCpl opReadTemperature raw (convT raw))
  else s.failRequest opReadTemperature .busError

end Sys2Proof.Machine
end

