-- ==== Sys2Proof/Machine/Dispatch.lean ====
section
/-! DEFINITION. One arm per operation (R72, R140): each calls the operation's own meaning. -/

namespace Sys2Proof.Machine

open Sys2Proof

/-- The effect of a decoded request, in the step that consumes it (R140). -/
def exec (i : Instr) (s : State) : Host.Outcome State Fault Refusal :=
  match i with
  | .init => Sys2Proof.Machine.execInit s
  | .readUserReg => Sys2Proof.Machine.execReadUserReg s
  | .readDeviceId => Sys2Proof.Machine.execReadDeviceId s
  | .readHumidity => Sys2Proof.Machine.execReadHumidity s
  | .readTemperature => Sys2Proof.Machine.execReadTemperature s
  | .crcUpdate state byte => Sys2Proof.Machine.execCrcUpdate state byte s
  | .crcCompute16 value => Sys2Proof.Machine.execCrcCompute16 value s

end Sys2Proof.Machine
end

