-- ==== Sys2Proof/Machine/Events.lean ====
section
/-! DEFINITION. What each input event does (the `case E of` of R140): the host request, decoded and executed or
completed ILLEGAL; the bus completion, by SEQ_STATE; the timer expiry. -/

namespace Sys2Proof.Machine

open Sys2Proof

/-- HostReq(w) (R140): ILLEGAL is decided first, from the word alone (R143). -/
def hostRequest (w : ReqWord) (s : State) : Result :=
  match decode w with
  | .ok i => exec i s
  | .error _ => .next (s.complete (illegalCpl w))

/-- The effect of a BusDone that keeps the contract, by SEQ_STATE (R140). In the two states with no transaction
outstanding there is none. -/
def busEffect (ok : Bool) (rdata : List Byte) (s : State) : State :=
  match s.seqState with
  | .idle => s
  | .humCmdSent => humCommandDone ok rdata s
  | .humWaitSettle => s
  | .humReading => humReadDone ok rdata s
  | .tempXfer => tempDone ok rdata s
  | .uregXfer => userRegDone ok rdata s
  | .idSeq1 => idSeq1Done ok rdata s
  | .idSeq2 => idSeq2Done ok rdata s

/-- BusDone(ok, rdata) (R140): spurious where nothing is outstanding; a fault where a success has the wrong length;
else the effect. -/
def busCompletion (ok : Bool) (rdata : List Byte) (s : State) : Result :=
  match s.seqState.readLen with
  | none => s.unexpected .spuriousBusDone
  | some n =>
    if ok = true ∧ rdata.length ≠ n then s.unexpected .badReadLength
    else .next (busEffect ok rdata s)

/-- TimerExpired(p) (R140): expected in HUM_WAIT_SETTLE alone; the payload is not examined (R154). -/
def timerExpiry (_payload : Payload) (s : State) : Result :=
  if s.seqState = .humWaitSettle then .next (settleDone s) else s.unexpected .spuriousTimer

/-- One input event, already taken from the list of inputs. -/
def consume (e : Event) (s : State) : Result :=
  match e with
  | .hostReq w => hostRequest w s
  | .busDone ok rdata => busCompletion ok rdata s
  | .timerExpired p => timerExpiry p s

/-- The state with the oldest input taken. -/
def State.takeInput (s : State) (rest : List Event) : State := { s with inputs := rest }

/-- The state with a host request placed before every other input. -/
def State.placeRequest (s : State) (w : ReqWord) : State := { s with inputs := .hostReq w :: s.inputs }

end Sys2Proof.Machine
end

