-- ==== Sys2Proof/Machine/Step.lean ====
section
/-! DEFINITION. One step (R8, R140): it consumes exactly one input event. With no event there is no step of the block,
and the machine waits as it is (R8, R236, log 3). -/

namespace Sys2Proof.Machine

open Sys2Proof

/-- One step of the machine. -/
def step (s : State) : Host.Outcome State Fault Refusal :=
  match s.inputs with
  | [] => .next s
  | e :: rest => consume e (s.takeInput rest)

/-- The state with the request word of a table row where step takes its next instruction: the block fetches nothing
(R61), a request arrives from the host, so the word is the oldest input (log 13). The bits above `nbits` are 0. -/
def State.withFetchWord (s : State) (nbits w : Nat) : State :=
  s.placeRequest (BitVec.ofNat 24 (w % 2 ^ nbits))

end Sys2Proof.Machine
end

