-- ==== Sys2Proof/Gf2.lean ====
section
/-! DEFINITION. The polynomial reading of R100, for statements only: a byte as a polynomial over GF(2), a message as
the polynomial of its bytes, and P = x⁸+x⁵+x⁴+1. The machine uses none of it. -/

namespace Sys2Proof

open Polynomial

/-- A byte as a polynomial over GF(2), bit 7 the coefficient of x⁷ (R100). -/
noncomputable def Gf2.ofByte (b : Byte) : (ZMod 2)[X] :=
  ∑ i ∈ Finset.range 8, if b.getLsbD i then X ^ i else 0

/-- M(x) of R100: the first byte's bit 7 has the highest coefficient. -/
noncomputable def Gf2.ofBytes : List Byte → (ZMod 2)[X]
  | [] => 0
  | b :: rest => Gf2.ofByte b * X ^ (8 * rest.length) + Gf2.ofBytes rest

/-- P = x⁸+x⁵+x⁴+1, bit pattern 0x131 (R100). -/
noncomputable def Gf2.modulus : (ZMod 2)[X] := X ^ 8 + X ^ 5 + X ^ 4 + 1

end Sys2Proof
end

