-- ==== Sys2Proof/Safety.lean ====
section
/-! DEFINITION. The terms the statements are written in: what is in flight (R22), the environment's contract (R206),
the hardware's view of a model fault (R144), quiescent states and clean runs (R240), the invariants, the language of
the outputs (R160) and the transition table written out from the spec's own table (R159). -/

namespace Sys2Proof.Machine

open Sys2Proof

/-! ## What is in flight (R22) -/

/-- A bus transaction is outstanding: the six states R22 lists. -/
def SeqState.busOutstanding : SeqState → Bool
  | .idle => false
  | .humCmdSent => true
  | .humWaitSettle => false
  | .humReading => true
  | .tempXfer => true
  | .uregXfer => true
  | .idSeq1 => true
  | .idSeq2 => true

/-- The one-shot timer is armed (R22). -/
def SeqState.timerArmed (q : SeqState) : Bool := q == .humWaitSettle

/-- A sequencer request is in flight (R21). -/
def SeqState.inFlight (q : SeqState) : Bool := q != .idle

/-- The transaction a waiting state waits for (R21, R81). -/
def SeqState.pendingXfers (p : Params) : SeqState → Option (List Xfer)
  | .idle => none
  | .humCmdSent => some (humCommandXfers p)
  | .humWaitSettle => none
  | .humReading => some (humReadXfers p)
  | .tempXfer => some (tempXfers p)
  | .uregXfer => some (userRegXfers p)
  | .idSeq1 => some (idSeq1Xfers p)
  | .idSeq2 => some (idSeq2Xfers p)

/-! ## Counting outputs -/

/-- The output is a bus request. -/
def Output.isBusReq : Output → Bool
  | .busReq _ => true
  | .timerCreate => false
  | .timerStart _ _ => false
  | .cpl _ => false

/-- The output arms the timer. -/
def Output.isTimerStart : Output → Bool
  | .busReq _ => false
  | .timerCreate => false
  | .timerStart _ _ => true
  | .cpl _ => false

/-- The output is a timer request of either kind. -/
def Output.isTimer : Output → Bool
  | .busReq _ => false
  | .timerCreate => true
  | .timerStart _ _ => true
  | .cpl _ => false

/-- The output is a completion. -/
def Output.isCpl : Output → Bool
  | .busReq _ => false
  | .timerCreate => false
  | .timerStart _ _ => false
  | .cpl _ => true

/-- One if the Boolean holds, for counting. -/
def oneIf (b : Bool) : Nat := if b then 1 else 0

/-- The event is a host request. -/
def Event.isHostReq : Event → Bool
  | .hostReq _ => true
  | .busDone _ _ => false
  | .timerExpired _ => false

/-- The event is a bus completion. -/
def Event.isBusDone : Event → Bool
  | .hostReq _ => false
  | .busDone _ _ => true
  | .timerExpired _ => false

/-- The event is a timer expiry. -/
def Event.isTimerExpired : Event → Bool
  | .hostReq _ => false
  | .busDone _ _ => false
  | .timerExpired _ => true

/-! ## The environment's contract and the hardware's view of a fault -/

/-- The event keeps the environment's contract in a state (R53 parts 3 and 4, R206): a completion comes only when its
request is outstanding, and a successful read has the expected length. -/
def Event.keepsContract (q : SeqState) : Event → Bool
  | .hostReq _ => true
  | .busDone ok rdata =>
    match q.readLen with
    | none => false
    | some n => !ok || rdata.length == n
  | .timerExpired _ => q.timerArmed

/-- The state the hardware is left in by an event the model faults on (R144, R206). -/
def Fault.after : Fault → State
  | .spuriousBusDone s => s
  | .badReadLength s => s
  | .spuriousTimer s => s

/-- One step of the hardware: where the model faults, "in hardware the block goes on" (R206) from the fault's state. -/
def hardwareNext (s : State) : State :=
  match step s with
  | .next t => t
  | .fault f => f.after
  | .refused _ => s

/-! ## Invariants and the end of a run -/

/-- R143: away from IDLE the block is initialised. -/
def State.Inv (s : State) : Prop := s.seqState ≠ .idle → s.initDone = true

/-- The timer was asked for once if INIT has run and never before (R23, R210). -/
def State.TimerCreatedOnce (s : State) : Prop := s.outputs.count .timerCreate = oneIf s.initDone

/-- R240: the block is quiescent. -/
def State.quiescent (s : State) : Bool := s.seqState == .idle

/-- `n` steps of the machine, one event each, ending at the first fault (`Host.Core.run` of the block's core, on the
block's own types). -/
def runSteps : Nat → State → Result
  | 0, s => .next s
  | n + 1, s =>
    match step s with
    | .next t => runSteps n t
    | .fault f => .fault f
    | .refused r => .refused r

/-- R240: the run of `n` steps from `s` ends in `t` without a model fault, quiescent, with ERR_SPURIOUS = 0. -/
def CleanRun (n : Nat) (s t : State) : Prop :=
  runSteps n s = .next t ∧ t.quiescent = true ∧ t.errSpurious = false

/-- Two states that differ at most in BUF and ERR_SPURIOUS, which no rule reads before writing (R24, R25). -/
def State.AgreeButHidden (s t : State) : Prop :=
  s.seqState = t.seqState ∧ s.initDone = t.initDone ∧ s.params = t.params ∧
    s.inputs = t.inputs ∧ s.outputs = t.outputs

/-- The transactions of R81: the complete list. -/
def busTable (p : Params) : List (List Xfer) :=
  [[⟨p.slaveAddr, .write, 1, false, [0xE7]⟩, ⟨p.slaveAddr, .read, 1, true, []⟩],
   [⟨p.slaveAddr, .write, 2, false, [0xFA, 0x0F]⟩, ⟨p.slaveAddr, .read, 8, true, []⟩],
   [⟨p.slaveAddr, .write, 2, false, [0xFC, 0xC9]⟩, ⟨p.slaveAddr, .read, 6, true, []⟩],
   [⟨p.slaveAddr, .write, 1, true, [0xE5]⟩],
   [⟨p.slaveAddr, .read, 3, true, []⟩],
   [⟨p.slaveAddr, .write, 1, false, [tempCmdByte p.tempCmd]⟩, ⟨p.slaveAddr, .read, 2, true, []⟩]]

/-- Every bus request emitted so far is a transaction of R81. -/
def State.BusReqsInTable (s : State) : Prop := ∀ xfers, .busReq xfers ∈ s.outputs → xfers ∈ busTable s.params

/-! ## The language of the outputs (R58, R146, R160) -/

/-- Where a completion leaves a request: the stages that may end with it (R160 for READ_HUMIDITY, R159 for the
others), IDLE afterwards; refusals, illegal words, INIT and CRC operations leave the request in flight alone. -/
def trackCpl (q : SeqState) (c : Completion) : Option SeqState :=
  match c.status with
  | .illegal => some q
  | .busy => if q = .idle then none else some q
  | .notInit => if q = .idle then some q else none
  | .ok =>
    if c.op = opInit ∨ c.op = opCrcUpdate ∨ c.op = opCrcCompute16 then some q
    else if c.op = opReadUserReg ∧ q = .uregXfer then some .idle
    else if c.op = opReadDeviceId ∧ q = .idSeq2 then some .idle
    else if c.op = opReadHumidity ∧ q = .humReading then some .idle
    else if c.op = opReadTemperature ∧ q = .tempXfer then some .idle
    else none
  | .busError =>
    if c.op = opReadUserReg ∧ q = .uregXfer then some .idle
    else if c.op = opReadDeviceId ∧ (q = .idSeq1 ∨ q = .idSeq2) then some .idle
    else if c.op = opReadHumidity ∧ (q = .humCmdSent ∨ q = .humReading) then some .idle
    else if c.op = opReadTemperature ∧ q = .tempXfer then some .idle
    else none
  | .dataCorruption =>
    if c.op = opReadDeviceId ∧ (q = .idSeq1 ∨ q = .idSeq2) then some .idle
    else if c.op = opReadHumidity ∧ q = .humReading then some .idle
    else none

/-- Where a bus request leads: a first stage from IDLE, a later stage from the stage before it (R58). -/
def trackBusReq (p : Params) (q : SeqState) (xfers : List Xfer) : Option SeqState :=
  match q with
  | .idle =>
    if xfers = [⟨p.slaveAddr, .write, 1, false, [0xE7]⟩, ⟨p.slaveAddr, .read, 1, true, []⟩] then some .uregXfer
    else if xfers = [⟨p.slaveAddr, .write, 2, false, [0xFA, 0x0F]⟩, ⟨p.slaveAddr, .read, 8, true, []⟩] then
      some .idSeq1
    else if xfers = [⟨p.slaveAddr, .write, 1, true, [0xE5]⟩] then some .humCmdSent
    else if xfers = [⟨p.slaveAddr, .write, 1, false, [tempCmdByte p.tempCmd]⟩, ⟨p.slaveAddr, .read, 2, true, []⟩] then
      some .tempXfer
    else none
  | .idSeq1 =>
    if xfers = [⟨p.slaveAddr, .write, 2, false, [0xFC, 0xC9]⟩, ⟨p.slaveAddr, .read, 6, true, []⟩] then some .idSeq2
    else none
  | .humWaitSettle => if xfers = [⟨p.slaveAddr, .read, 3, true, []⟩] then some .humReading else none
  | .humCmdSent => none
  | .humReading => none
  | .tempXfer => none
  | .uregXfer => none
  | .idSeq2 => none

/-- Reading one output from a stage: the stage after it, or none if no request could emit it there. -/
def trackOutput (p : Params) (q : SeqState) : Output → Option SeqState
  | .busReq xfers => trackBusReq p q xfers
  | .timerCreate => if q = .idle then some q else none
  | .timerStart ms payload => if q = .humCmdSent ∧ ms = 25 ∧ payload = .ctxHum then some .humWaitSettle else none
  | .cpl c => trackCpl q c

/-- Reading a sequence of outputs. -/
def trackOutputs (p : Params) : SeqState → List Output → Option SeqState
  | q, [] => some q
  | q, o :: rest =>
    match trackOutput p q o with
    | none => none
    | some q' => trackOutputs p q' rest

/-- The outputs so far are a sequence of whole requests, each in its pattern, then a beginning of one, and SEQ_STATE
is the stage that beginning has reached (R58, R146, R160). -/
def State.FollowsProtocol (s : State) : Prop := trackOutputs s.params .idle s.outputs = some s.seqState

/-! ## The transition table (R159), with the rows R159 leaves out (refusals, CRC operations, a repeated INIT) -/

/-- R74's list of illegal words, item by item. -/
def IllegalWord (w : ReqWord) : Prop :=
  w.extractLsb' 20 4 ∈ ([0x5, 0x6, 0x7, 0xA, 0xB, 0xC, 0xD, 0xE, 0xF] : List OpCode) ∨
    w.extractLsb' 16 4 ≠ 0 ∨
    (w.extractLsb' 20 4 ∈ ([0x0, 0x1, 0x2, 0x3, 0x4] : List OpCode) ∧ w.extractLsb' 0 16 ≠ 0)

/-- BUF after an event that keeps the contract (R25). -/
def bufAfter : Event → Vector Byte 8 → Vector Byte 8
  | .hostReq _, buf => buf
  | .busDone ok rdata, buf => if ok then fillBuf buf rdata else buf
  | .timerExpired _, buf => buf

/-- A row of the table: in state `q` with INIT_DONE = `d`, the event `e` gives the outputs, the next state and the
next INIT_DONE. Each record and each descriptor is written out as R76 and R81 print it. -/
inductive TableRow (p : Params) : SeqState → Bool → Event → List Output → SeqState → Bool → Prop where
  /-- The first INIT. -/
  | initFirst (q : SeqState) :
      TableRow p q false (.hostReq 0x000000) [.timerCreate, .cpl ⟨0x0, .ok, 0, 0, 0⟩] q true
  /-- A repeated INIT. -/
  | initAgain (q : SeqState) :
      TableRow p q true (.hostReq 0x000000) [.cpl ⟨0x0, .ok, 0, 0, 0⟩] q true
  /-- READ_USER_REG accepted. -/
  | userReg :
      TableRow p .idle true (.hostReq 0x100000)
        [.busReq [⟨p.slaveAddr, .write, 1, false, [0xE7]⟩, ⟨p.slaveAddr, .read, 1, true, []⟩]] .uregXfer true
  /-- READ_DEVICE_ID accepted. -/
  | deviceId :
      TableRow p .idle true (.hostReq 0x200000)
        [.busReq [⟨p.slaveAddr, .write, 2, false, [0xFA, 0x0F]⟩, ⟨p.slaveAddr, .read, 8, true, []⟩]] .idSeq1 true
  /-- READ_HUMIDITY accepted. -/
  | humidity :
      TableRow p .idle true (.hostReq 0x300000)
        [.busReq [⟨p.slaveAddr, .write, 1, true, [0xE5]⟩]] .humCmdSent true
  /-- READ_TEMPERATURE accepted. -/
  | temperature :
      TableRow p .idle true (.hostReq 0x400000)
        [.busReq [⟨p.slaveAddr, .write, 1, false, [tempCmdByte p.tempCmd]⟩, ⟨p.slaveAddr, .read, 2, true, []⟩]]
        .tempXfer true
  /-- READ_USER_REG refused BUSY. -/
  | userRegBusy (q : SeqState) (d : Bool) (h : q ≠ .idle) :
      TableRow p q d (.hostReq 0x100000) [.cpl ⟨0x1, .busy, 0, 0, 0⟩] q d
  /-- READ_DEVICE_ID refused BUSY. -/
  | deviceIdBusy (q : SeqState) (d : Bool) (h : q ≠ .idle) :
      TableRow p q d (.hostReq 0x200000) [.cpl ⟨0x2, .busy, 0, 0, 0⟩] q d
  /-- READ_HUMIDITY refused BUSY. -/
  | humidityBusy (q : SeqState) (d : Bool) (h : q ≠ .idle) :
      TableRow p q d (.hostReq 0x300000) [.cpl ⟨0x3, .busy, 0, 0xFFFF, -1⟩] q d
  /-- READ_TEMPERATURE refused BUSY. -/
  | temperatureBusy (q : SeqState) (d : Bool) (h : q ≠ .idle) :
      TableRow p q d (.hostReq 0x400000) [.cpl ⟨0x4, .busy, 0, 0, -1⟩] q d
  /-- READ_USER_REG refused NOT_INIT. -/
  | userRegNotInit :
      TableRow p .idle false (.hostReq 0x100000) [.cpl ⟨0x1, .notInit, 0, 0, 0⟩] .idle false
  /-- READ_DEVICE_ID refused NOT_INIT. -/
  | deviceIdNotInit :
      TableRow p .idle false (.hostReq 0x200000) [.cpl ⟨0x2, .notInit, 0, 0, 0⟩] .idle false
  /-- READ_HUMIDITY refused NOT_INIT. -/
  | humidityNotInit :
      TableRow p .idle false (.hostReq 0x300000) [.cpl ⟨0x3, .notInit, 0, 0xFFFF, -1⟩] .idle false
  /-- READ_TEMPERATURE refused NOT_INIT. -/
  | temperatureNotInit :
      TableRow p .idle false (.hostReq 0x400000) [.cpl ⟨0x4, .notInit, 0, 0, -1⟩] .idle false
  /-- CRC_UPDATE, in every state. -/
  | crcUpdate (q : SeqState) (d : Bool) (state byte : Byte) :
      TableRow p q d (.hostReq (0x80#8 ++ state ++ byte)) [.cpl ⟨0x8, .ok, crc8Update state byte, 0, 0⟩] q d
  /-- CRC_COMPUTE16, in every state. -/
  | crcCompute16 (q : SeqState) (d : Bool) (value : RawCode) :
      TableRow p q d (.hostReq (0x90#8 ++ value)) [.cpl ⟨0x9, .ok, compute16 value, 0, 0⟩] q d
  /-- An illegal word, in every state. -/
  | illegal (q : SeqState) (d : Bool) (w : ReqWord) (h : IllegalWord w) :
      TableRow p q d (.hostReq w) [.cpl ⟨w.extractLsb' 20 4, .illegal, 0, 0, 0⟩] q d
  /-- The user register arrives. -/
  | userRegOk (d : Bool) (b : Byte) :
      TableRow p .uregXfer d (.busDone true [b]) [.cpl ⟨0x1, .ok, b, 0, 0⟩] .idle d
  /-- The user-register transaction fails. -/
  | userRegFail (d : Bool) (rdata : List Byte) :
      TableRow p .uregXfer d (.busDone false rdata) [.cpl ⟨0x1, .busError, 0, 0, 0⟩] .idle d
  /-- Identifier sequence 1 passes CheckId1. -/
  | idSeq1Pass (d : Bool) (b0 b1 b2 b3 b4 b5 b6 b7 : Byte)
      (h : checkId1 #v[b0, b1, b2, b3, b4, b5, b6, b7] = true) :
      TableRow p .idSeq1 d (.busDone true [b0, b1, b2, b3, b4, b5, b6, b7])
        [.busReq [⟨p.slaveAddr, .write, 2, false, [0xFC, 0xC9]⟩, ⟨p.slaveAddr, .read, 6, true, []⟩]] .idSeq2 d
  /-- Identifier sequence 1 fails CheckId1. -/
  | idSeq1Corrupt (d : Bool) (b0 b1 b2 b3 b4 b5 b6 b7 : Byte)
      (h : checkId1 #v[b0, b1, b2, b3, b4, b5, b6, b7] = false) :
      TableRow p .idSeq1 d (.busDone true [b0, b1, b2, b3, b4, b5, b6, b7])
        [.cpl ⟨0x2, .dataCorruption, 0, 0, 0⟩] .idle d
  /-- The transaction of identifier sequence 1 fails. -/
  | idSeq1Fail (d : Bool) (rdata : List Byte) :
      TableRow p .idSeq1 d (.busDone false rdata) [.cpl ⟨0x2, .busError, 0, 0, 0⟩] .idle d
  /-- Identifier sequence 2 passes CheckId2. -/
  | idSeq2Pass (d : Bool) (b0 b1 b2 b3 b4 b5 : Byte)
      (h : checkId2 p.id2CrcChain #v[b0, b1, b2, b3, b4, b5] = true) :
      TableRow p .idSeq2 d (.busDone true [b0, b1, b2, b3, b4, b5]) [.cpl ⟨0x2, .ok, b0, 0, 0⟩] .idle d
  /-- Identifier sequence 2 fails CheckId2. -/
  | idSeq2Corrupt (d : Bool) (b0 b1 b2 b3 b4 b5 : Byte)
      (h : checkId2 p.id2CrcChain #v[b0, b1, b2, b3, b4, b5] = false) :
      TableRow p .idSeq2 d (.busDone true [b0, b1, b2, b3, b4, b5])
        [.cpl ⟨0x2, .dataCorruption, 0, 0, 0⟩] .idle d
  /-- The transaction of identifier sequence 2 fails. -/
  | idSeq2Fail (d : Bool) (rdata : List Byte) :
      TableRow p .idSeq2 d (.busDone false rdata) [.cpl ⟨0x2, .busError, 0, 0, 0⟩] .idle d
  /-- The humidity command is written: the timer gate. -/
  | humCommandOk (d : Bool) :
      TableRow p .humCmdSent d (.busDone true []) [.timerStart 25 .ctxHum] .humWaitSettle d
  /-- The humidity command's transaction fails: failure point 1. -/
  | humCommandFail (d : Bool) (rdata : List Byte) :
      TableRow p .humCmdSent d (.busDone false rdata) [.cpl ⟨0x3, .busError, 0, 0xFFFF, -1⟩] .idle d
  /-- The settle delay ends: the 3-byte read. -/
  | settled (d : Bool) (payload : Payload) :
      TableRow p .humWaitSettle d (.timerExpired payload)
        [.busReq [⟨p.slaveAddr, .read, 3, true, []⟩]] .humReading d
  /-- A humidity read that passes its check. -/
  | humReadOk (d : Bool) (b0 b1 c : Byte) (h : checkMeasurement b0 b1 c = true) :
      TableRow p .humReading d (.busDone true [b0, b1, c])
        [.cpl ⟨0x3, .ok, 0, reportedRaw p.humRawReport (b0 ++ b1), convH ((b0 ++ b1) &&& 0xFFFC)⟩] .idle d
  /-- A humidity read that fails its check: failure point 3. -/
  | humReadCorrupt (d : Bool) (b0 b1 c : Byte) (h : checkMeasurement b0 b1 c = false) :
      TableRow p .humReading d (.busDone true [b0, b1, c])
        [.cpl ⟨0x3, .dataCorruption, 0, 0xFFFF, -1⟩] .idle d
  /-- The humidity read's transaction fails: failure point 2. -/
  | humReadFail (d : Bool) (rdata : List Byte) :
      TableRow p .humReading d (.busDone false rdata) [.cpl ⟨0x3, .busError, 0, 0xFFFF, -1⟩] .idle d
  /-- A temperature read. -/
  | tempOk (d : Bool) (b0 b1 : Byte) :
      TableRow p .tempXfer d (.busDone true [b0, b1]) [.cpl ⟨0x4, .ok, 0, b0 ++ b1, convT (b0 ++ b1)⟩] .idle d
  /-- The temperature transaction fails. -/
  | tempFail (d : Bool) (rdata : List Byte) :
      TableRow p .tempXfer d (.busDone false rdata) [.cpl ⟨0x4, .busError, 0, 0, -1⟩] .idle d

end Sys2Proof.Machine
end

