-- ==== Sys2Proof/Certificates/Slice0/Obligations.lean ====
section
/-! DEFINITION. The statements for the provers. Each docstring names the rule of spec/ it formalises. A statement
that gives a whole next state also gives its frame: every field not written in it is as before. The block has no
memory (R7, R26), so a frame speaks of the four registers, the parameters, the inputs and the outputs. -/

open Sys2Proof Sys2Proof.Machine

/-! ## Encoding and decoding -/

/-- Words written out from R70 to R72 decode as the spec's vectors say (95_test_vectors.md, V-DEC and the examples). -/
def Obligations.SpecWordsDecode : Prop :=
  decode 0x000000 = .ok .init ∧ decode 0x100000 = .ok .readUserReg ∧ decode 0x200000 = .ok .readDeviceId ∧
  decode 0x300000 = .ok .readHumidity ∧ decode 0x400000 = .ok .readTemperature ∧
  decode 0x801234 = .ok (.crcUpdate 0x12 0x34) ∧ decode 0x905A00 = .ok (.crcCompute16 0x5A00) ∧
  decode 0x000001 = .error .operandNotZero ∧ decode 0x010000 = .error .reservedField ∧
  decode 0x500000 = .error .reservedOp ∧ decode 0x810000 = .error .reservedField

/-- R70 to R73: decoding the word of any operation, with any operands, gives it back. -/
def Obligations.DecodeEncodeRoundTrip : Prop := ∀ i : Instr, decode (encode i) = .ok i

/-- R73: every word that decodes is the word of the operation it decodes to, so no operation has two words. -/
def Obligations.DecodedWordIsEncoding : Prop := ∀ (w : ReqWord) (i : Instr), decode w = .ok i → encode i = w

/-- R73, R74: the words the decoder rejects are exactly those R74 lists. -/
def Obligations.IllegalWordsAreThoseListed : Prop :=
  ∀ w : ReqWord, (∃ e, decode w = .error e) ↔ IllegalWord w

/-- R21, R77: the codes of the sequencer states and of the status values, all eight state codes used, and no status
has a reserved code. -/
def Obligations.StateAndStatusCodes : Prop :=
  (∀ q : SeqState, SeqState.ofCode q.code = q) ∧ (∀ c : BitVec 3, (SeqState.ofCode c).code = c) ∧
  SeqState.code .idle = 0 ∧ SeqState.code .humCmdSent = 1 ∧ SeqState.code .humWaitSettle = 2 ∧
  SeqState.code .humReading = 3 ∧ SeqState.code .tempXfer = 4 ∧ SeqState.code .uregXfer = 5 ∧
  SeqState.code .idSeq1 = 6 ∧ SeqState.code .idSeq2 = 7 ∧
  Status.code .ok = 0 ∧ Status.code .busError = 1 ∧ Status.code .dataCorruption = 2 ∧
  Status.code .busy = 3 ∧ Status.code .illegal = 4 ∧ Status.code .notInit = 5 ∧
  (∀ st : Status, st.code ≠ 6 ∧ st.code ≠ 7)

/-! ## The step -/

/-- R140: a host request whose word decodes is executed, on the state it was taken from; nothing else is added. -/
def Obligations.StepRunsDecodedRequest : Prop :=
  ∀ (s : State) (w : ReqWord) (rest : List Event) (i : Instr),
    s.inputs = .hostReq w :: rest → decode w = .ok i → step s = exec i { s with inputs := rest }

/-- The word of a table row, placed as the next request, is what the very next step executes (the model's way of
placing a request, log 13). -/
def Obligations.PlacedWordIsRunNext : Prop :=
  ∀ (s : State) (w : Nat) (i : Instr), decodeTableWord 24 w = some i → step (s.withFetchWord 24 w) = exec i s

/-- R8: no step of the block without an input event: the machine stays as it is (the model's form of waiting,
log 3). -/
def Obligations.NoEventNoChange : Prop := ∀ s : State, s.inputs = [] → step s = .next s

/-- R74, R202: an illegal word is completed in the step that consumes it, in every state, with its OP field and
ILLEGAL, and nothing else changes. -/
def Obligations.IllegalWordIsCompleted : Prop :=
  ∀ (s : State) (w : ReqWord) (rest : List Event), s.inputs = .hostReq w :: rest → IllegalWord w →
    step s = .next { s with
      inputs := rest, outputs := s.outputs ++ [.cpl ⟨w.extractLsb' 20 4, .illegal, 0, 0, 0⟩] }

/-! ## The operations: what each request does, in every state -/

/-- R150: INIT in every state; the first creates the timer and sets INIT_DONE, every one completes OK. -/
def Obligations.InitCompletes : Prop :=
  decode 0x000000 = .ok .init ∧
  ∀ s : State, exec .init s = .next (
    if s.initDone = false then
      { s with initDone := true, outputs := s.outputs ++ [.timerCreate, .cpl ⟨0x0, .ok, 0, 0, 0⟩] }
    else { s with outputs := s.outputs ++ [.cpl ⟨0x0, .ok, 0, 0, 0⟩] })

/-- R120: READ_USER_REG, its request step in every state and its completion steps. -/
def Obligations.UserRegisterRead : Prop :=
  decode 0x100000 = .ok .readUserReg ∧
  (∀ s : State, exec .readUserReg s = .next (
    if s.seqState ≠ .idle then { s with outputs := s.outputs ++ [.cpl ⟨0x1, .busy, 0, 0, 0⟩] }
    else if s.initDone = false then { s with outputs := s.outputs ++ [.cpl ⟨0x1, .notInit, 0, 0, 0⟩] }
    else { s with
      seqState := .uregXfer
      outputs := s.outputs ++ [.busReq [⟨s.params.slaveAddr, .write, 1, false, [0xE7]⟩,
        ⟨s.params.slaveAddr, .read, 1, true, []⟩]] })) ∧
  (∀ (s : State) (b : Byte) (rest : List Event), s.seqState = .uregXfer → s.inputs = .busDone true [b] :: rest →
    step s = .next { s with
      seqState := .idle, inputs := rest, buf := s.buf.set 0 b
      outputs := s.outputs ++ [.cpl ⟨0x1, .ok, b, 0, 0⟩] }) ∧
  (∀ (s : State) (rdata : List Byte) (rest : List Event), s.seqState = .uregXfer →
    s.inputs = .busDone false rdata :: rest →
    step s = .next { s with
      seqState := .idle, inputs := rest, outputs := s.outputs ++ [.cpl ⟨0x1, .busError, 0, 0, 0⟩] })

/-- R121: READ_DEVICE_ID, request step, in every state: sequence 1 is sent if it is accepted. -/
def Obligations.DeviceIdRequest : Prop :=
  decode 0x200000 = .ok .readDeviceId ∧
  ∀ s : State, exec .readDeviceId s = .next (
    if s.seqState ≠ .idle then { s with outputs := s.outputs ++ [.cpl ⟨0x2, .busy, 0, 0, 0⟩] }
    else if s.initDone = false then { s with outputs := s.outputs ++ [.cpl ⟨0x2, .notInit, 0, 0, 0⟩] }
    else { s with
      seqState := .idSeq1
      outputs := s.outputs ++ [.busReq [⟨s.params.slaveAddr, .write, 2, false, [0xFA, 0x0F]⟩,
        ⟨s.params.slaveAddr, .read, 8, true, []⟩]] })

/-- R121: the completion of identifier sequence 1: sequence 2 is sent only after a good check. -/
def Obligations.DeviceIdSequenceOne : Prop :=
  (∀ (s : State) (b0 b1 b2 b3 b4 b5 b6 b7 : Byte) (rest : List Event), s.seqState = .idSeq1 →
    s.inputs = .busDone true [b0, b1, b2, b3, b4, b5, b6, b7] :: rest →
    step s = .next (
      if checkId1 #v[b0, b1, b2, b3, b4, b5, b6, b7] then
        { s with
          seqState := .idSeq2, inputs := rest, buf := #v[b0, b1, b2, b3, b4, b5, b6, b7]
          outputs := s.outputs ++ [.busReq [⟨s.params.slaveAddr, .write, 2, false, [0xFC, 0xC9]⟩,
            ⟨s.params.slaveAddr, .read, 6, true, []⟩]] }
      else
        { s with
          seqState := .idle, inputs := rest, buf := #v[b0, b1, b2, b3, b4, b5, b6, b7]
          outputs := s.outputs ++ [.cpl ⟨0x2, .dataCorruption, 0, 0, 0⟩] })) ∧
  (∀ (s : State) (rdata : List Byte) (rest : List Event), s.seqState = .idSeq1 →
    s.inputs = .busDone false rdata :: rest →
    step s = .next { s with
      seqState := .idle, inputs := rest, outputs := s.outputs ++ [.cpl ⟨0x2, .busError, 0, 0, 0⟩] })

/-- R121, R122: the completion of identifier sequence 2: the identifier is the first byte. -/
def Obligations.DeviceIdSequenceTwo : Prop :=
  (∀ (s : State) (b0 b1 b2 b3 b4 b5 : Byte) (rest : List Event), s.seqState = .idSeq2 →
    s.inputs = .busDone true [b0, b1, b2, b3, b4, b5] :: rest →
    step s = .next { s with
      seqState := .idle, inputs := rest, buf := #v[b0, b1, b2, b3, b4, b5, s.buf[6], s.buf[7]]
      outputs := s.outputs ++ [.cpl (
        if checkId2 s.params.id2CrcChain #v[b0, b1, b2, b3, b4, b5] then ⟨0x2, .ok, b0, 0, 0⟩
        else ⟨0x2, .dataCorruption, 0, 0, 0⟩)] }) ∧
  (∀ (s : State) (rdata : List Byte) (rest : List Event), s.seqState = .idSeq2 →
    s.inputs = .busDone false rdata :: rest →
    step s = .next { s with
      seqState := .idle, inputs := rest, outputs := s.outputs ++ [.cpl ⟨0x2, .busError, 0, 0, 0⟩] })

/-- R152: READ_HUMIDITY, request step, in every state. -/
def Obligations.HumidityRequest : Prop :=
  decode 0x300000 = .ok .readHumidity ∧
  ∀ s : State, exec .readHumidity s = .next (
    if s.seqState ≠ .idle then { s with outputs := s.outputs ++ [.cpl ⟨0x3, .busy, 0, 0xFFFF, -1⟩] }
    else if s.initDone = false then { s with outputs := s.outputs ++ [.cpl ⟨0x3, .notInit, 0, 0xFFFF, -1⟩] }
    else { s with
      seqState := .humCmdSent
      outputs := s.outputs ++ [.busReq [⟨s.params.slaveAddr, .write, 1, true, [0xE5]⟩]] })

/-- R153: the stage-1 completion arms the timer for 25 ms, or ends the request at failure point 1 with no timer. -/
def Obligations.HumidityCommandCompletion : Prop :=
  (∀ (s : State) (rest : List Event), s.seqState = .humCmdSent → s.inputs = .busDone true [] :: rest →
    step s = .next { s with
      seqState := .humWaitSettle, inputs := rest, outputs := s.outputs ++ [.timerStart 25 .ctxHum] }) ∧
  (∀ (s : State) (rdata : List Byte) (rest : List Event), s.seqState = .humCmdSent →
    s.inputs = .busDone false rdata :: rest →
    step s = .next { s with
      seqState := .idle, inputs := rest, outputs := s.outputs ++ [.cpl ⟨0x3, .busError, 0, 0xFFFF, -1⟩] })

/-- R154: the expiry, whatever its payload, sends the 3-byte read with no write before it. -/
def Obligations.HumiditySettled : Prop :=
  ∀ (s : State) (payload : Payload) (rest : List Event), s.seqState = .humWaitSettle →
    s.inputs = .timerExpired payload :: rest →
    step s = .next { s with
      seqState := .humReading, inputs := rest
      outputs := s.outputs ++ [.busReq [⟨s.params.slaveAddr, .read, 3, true, []⟩]] }

/-- R155, R158: the stage-3 completion: check the code as read, mask it, report and convert it; failure points 2
and 3 give the sentinel. -/
def Obligations.HumidityReadCompletion : Prop :=
  (∀ (s : State) (b0 b1 c : Byte) (rest : List Event), s.seqState = .humReading →
    s.inputs = .busDone true [b0, b1, c] :: rest →
    step s = .next { s with
      seqState := .idle, inputs := rest
      buf := #v[b0, b1, c, s.buf[3], s.buf[4], s.buf[5], s.buf[6], s.buf[7]]
      outputs := s.outputs ++ [.cpl (
        if compute16 (b0 ++ b1) = c then
          ⟨0x3, .ok, 0,
            match s.params.humRawReport with
            | .masked => (b0 ++ b1) &&& 0xFFFC
            | .unmasked => b0 ++ b1,
            convH ((b0 ++ b1) &&& 0xFFFC)⟩
        else ⟨0x3, .dataCorruption, 0, 0xFFFF, -1⟩)] }) ∧
  (∀ (s : State) (rdata : List Byte) (rest : List Event), s.seqState = .humReading →
    s.inputs = .busDone false rdata :: rest →
    step s = .next { s with
      seqState := .idle, inputs := rest, outputs := s.outputs ++ [.cpl ⟨0x3, .busError, 0, 0xFFFF, -1⟩] })

/-- R156: READ_TEMPERATURE, request step, in every state; the command byte is the parameter TEMP_CMD (R78). -/
def Obligations.TemperatureRequest : Prop :=
  decode 0x400000 = .ok .readTemperature ∧
  ∀ s : State, exec .readTemperature s = .next (
    if s.seqState ≠ .idle then { s with outputs := s.outputs ++ [.cpl ⟨0x4, .busy, 0, 0, -1⟩] }
    else if s.initDone = false then { s with outputs := s.outputs ++ [.cpl ⟨0x4, .notInit, 0, 0, -1⟩] }
    else { s with
      seqState := .tempXfer
      outputs := s.outputs ++ [.busReq [⟨s.params.slaveAddr, .write, 1, false,
        [match s.params.tempCmd with
          | .fromHumidityCycle => 0xE0
          | .direct => 0xE3]⟩, ⟨s.params.slaveAddr, .read, 2, true, []⟩]] })

/-- R157: the temperature completion: any two bytes are accepted, unmasked and unchecked. -/
def Obligations.TemperatureCompletion : Prop :=
  (∀ (s : State) (b0 b1 : Byte) (rest : List Event), s.seqState = .tempXfer →
    s.inputs = .busDone true [b0, b1] :: rest →
    step s = .next { s with
      seqState := .idle, inputs := rest
      buf := #v[b0, b1, s.buf[2], s.buf[3], s.buf[4], s.buf[5], s.buf[6], s.buf[7]]
      outputs := s.outputs ++ [.cpl ⟨0x4, .ok, 0, b0 ++ b1, convT (b0 ++ b1)⟩] }) ∧
  (∀ (s : State) (rdata : List Byte) (rest : List Event), s.seqState = .tempXfer →
    s.inputs = .busDone false rdata :: rest →
    step s = .next { s with
      seqState := .idle, inputs := rest, outputs := s.outputs ++ [.cpl ⟨0x4, .busError, 0, 0, -1⟩] })

/-- CRC_UPDATE completes in every state with the updated checksum and changes nothing else (40_checksum.md section 2;
the shift-register form behind the value is the spec's own reading, "the standard meaning", log 12). -/
def Obligations.CrcUpdateCompletes : Prop :=
  ∀ (state byte : Byte) (s : State), exec (.crcUpdate state byte) s = .next { s with
    outputs := s.outputs ++ [.cpl ⟨0x8, .ok, crc8Update state byte, 0, 0⟩] }

/-- CRC_COMPUTE16 completes in every state with the checksum of the value and changes nothing else (40_checksum.md
section 2; the form of the checksum is the spec's own reading, log 12). -/
def Obligations.CrcCompute16Completes : Prop :=
  ∀ (value : RawCode) (s : State), exec (.crcCompute16 value) s = .next { s with
    outputs := s.outputs ++ [.cpl ⟨0x9, .ok, crc8Update (crc8Update 0x00 (value.extractLsb' 8 8))
      (value.extractLsb' 0 8), 0, 0⟩] }

/-- R141: a sequencer request away from IDLE is refused BUSY with its sentinel, initialised or not, and the request in
flight goes on untouched. -/
def Obligations.BusyRefusal : Prop :=
  ∀ s : State, s.seqState ≠ .idle →
    exec .readUserReg s = .next { s with outputs := s.outputs ++ [.cpl ⟨0x1, .busy, 0, 0, 0⟩] } ∧
    exec .readDeviceId s = .next { s with outputs := s.outputs ++ [.cpl ⟨0x2, .busy, 0, 0, 0⟩] } ∧
    exec .readHumidity s = .next { s with outputs := s.outputs ++ [.cpl ⟨0x3, .busy, 0, 0xFFFF, -1⟩] } ∧
    exec .readTemperature s = .next { s with outputs := s.outputs ++ [.cpl ⟨0x4, .busy, 0, 0, -1⟩] }

/-- R142: a sequencer request in IDLE before INIT is refused NOT_INIT with its sentinel. -/
def Obligations.NotInitRefusal : Prop :=
  ∀ s : State, s.seqState = .idle → s.initDone = false →
    exec .readUserReg s = .next { s with outputs := s.outputs ++ [.cpl ⟨0x1, .notInit, 0, 0, 0⟩] } ∧
    exec .readDeviceId s = .next { s with outputs := s.outputs ++ [.cpl ⟨0x2, .notInit, 0, 0, 0⟩] } ∧
    exec .readHumidity s = .next { s with outputs := s.outputs ++ [.cpl ⟨0x3, .notInit, 0, 0xFFFF, -1⟩] } ∧
    exec .readTemperature s = .next { s with outputs := s.outputs ++ [.cpl ⟨0x4, .notInit, 0, 0, -1⟩] }

/-! ## Frames -/

/-- What the request step of a sequencer operation leaves unchanged: every register but SEQ_STATE, which leaves IDLE
only when the request is accepted; BUF among them, since a request step reads nothing from the bus. -/
def Obligations.SequencerRequestFrame : Prop :=
  ∀ (i : Instr) (s t : State), i ∈ [Instr.readUserReg, .readDeviceId, .readHumidity, .readTemperature] →
    exec i s = .next t →
    t.buf = s.buf ∧ t.initDone = s.initDone ∧ t.errSpurious = s.errSpurious ∧ t.params = s.params ∧
    t.inputs = s.inputs ∧ (s.seqState ≠ .idle ∨ s.initDone = false → t.seqState = s.seqState) ∧
    s.outputs.length + 1 = t.outputs.length ∧ s.outputs <+: t.outputs

/-- What INIT and the CRC operations leave unchanged: every register, but INIT_DONE for INIT. -/
def Obligations.SingleStepOperationFrame : Prop :=
  ∀ (i : Instr) (s t : State), (i = .init ∨ (∃ a b, i = .crcUpdate a b) ∨ ∃ v, i = .crcCompute16 v) →
    exec i s = .next t →
    t.seqState = s.seqState ∧ t.buf = s.buf ∧ t.errSpurious = s.errSpurious ∧ t.params = s.params ∧
    t.inputs = s.inputs ∧ (i ≠ .init → t.initDone = s.initDone) ∧ (s.initDone = true → t.initDone = true) ∧
    s.outputs <+: t.outputs

/-- R25: only a successful bus completion writes BUF: rdata[i] at i < len(rdata), every other byte as it was; and the
completion writes neither flag and no parameter. -/
def Obligations.BufferWrites : Prop :=
  ∀ (s t : State) (e : Event) (rest : List Event), s.inputs = e :: rest → step s = .next t →
    (∀ (rdata : List Byte) (i : Nat) (h : i < 8), e = .busDone true rdata →
      t.buf[i] = if hl : i < rdata.length then rdata[i] else s.buf[i]) ∧
    ((∀ rdata, e ≠ .busDone true rdata) → t.buf = s.buf) ∧
    (e.isHostReq = false → t.initDone = s.initDone) ∧ t.errSpurious = s.errSpurious ∧
    t.params = s.params ∧ t.inputs = rest

/-- R51, R232: no step changes a parameter; SLAVE_ADDR is constant for the lifetime of the block, through a model
fault too. -/
def Obligations.ParametersConstant : Prop := ∀ s : State, (hardwareNext s).params = s.params

/-! ## Unexpected events -/

/-- R144: the three events that break the contract: ERR_SPURIOUS is set, nothing else changes and nothing is
emitted; the model raises the fault, which carries that state. -/
def Obligations.UnexpectedEventsFault : Prop :=
  (∀ (s : State) (ok : Bool) (rdata : List Byte) (rest : List Event), s.inputs = .busDone ok rdata :: rest →
    (s.seqState = .idle ∨ s.seqState = .humWaitSettle) →
    step s = .fault (.spuriousBusDone { s with inputs := rest, errSpurious := true })) ∧
  (∀ (s : State) (rdata : List Byte) (rest : List Event) (n : Nat), s.inputs = .busDone true rdata :: rest →
    s.seqState.readLen = some n → rdata.length ≠ n →
    step s = .fault (.badReadLength { s with inputs := rest, errSpurious := true })) ∧
  (∀ (s : State) (payload : Payload) (rest : List Event), s.inputs = .timerExpired payload :: rest →
    s.seqState ≠ .humWaitSettle →
    step s = .fault (.spuriousTimer { s with inputs := rest, errSpurious := true }))

/-- R140: ReadLen, and that it is given exactly where a bus transaction is outstanding (R22). -/
def Obligations.ReadLengths : Prop :=
  SeqState.readLen .humCmdSent = some 0 ∧ SeqState.readLen .humReading = some 3 ∧
  SeqState.readLen .tempXfer = some 2 ∧ SeqState.readLen .uregXfer = some 1 ∧
  SeqState.readLen .idSeq1 = some 8 ∧ SeqState.readLen .idSeq2 = some 6 ∧
  ∀ q : SeqState, q.readLen.isSome = q.busOutstanding

/-- R206: a step faults exactly when its event breaks the environment's contract, and it never refuses: in a
contract-keeping environment every step answers a next state. -/
def Obligations.FaultExactlyOnContractBreach : Prop :=
  ∀ (s : State) (e : Event) (rest : List Event), s.inputs = e :: rest →
    ((∃ f, step s = .fault f) ↔ e.keepsContract s.seqState = false) ∧
    ((∃ t, step s = .next t) ↔ e.keepsContract s.seqState = true)

/-- R24: ERR_SPURIOUS is sticky, is set by every fault, and a step that does not fault leaves it alone. -/
def Obligations.ErrSpuriousSticky : Prop :=
  ∀ s : State,
    (s.errSpurious = true → (hardwareNext s).errSpurious = true) ∧
    (∀ f, step s = .fault f → f.after.errSpurious = true) ∧
    (∀ t, step s = .next t → t.errSpurious = s.errSpurious)

/-! ## What a step emits -/

/-- R145: a step's outputs follow the earlier ones, with at most one BusReq, one timer request and one Cpl; a step
with a Cpl emits no BusReq and no TimerStart; and a BusReq or a TimerStart leaves SEQ_STATE in the state that waits
for its answer. -/
def Obligations.OutputsPerStep : Prop :=
  ∀ s t : State, step s = .next t → ∃ new, t.outputs = s.outputs ++ new ∧
    new.countP Output.isBusReq ≤ 1 ∧ new.countP Output.isTimer ≤ 1 ∧ new.countP Output.isCpl ≤ 1 ∧
    (new.countP Output.isCpl = 1 → new.countP Output.isBusReq = 0 ∧ new.countP Output.isTimerStart = 0) ∧
    (∀ xfers, .busReq xfers ∈ new → t.seqState.pendingXfers t.params = some xfers) ∧
    (new.countP Output.isTimerStart = 1 → t.seqState = .humWaitSettle)

/-- R79, R80: every descriptor a step emits carries SLAVE_ADDR, has at least one byte and exactly the bytes it writes,
and those are bytes of R78; no operation writes 0xFE. -/
def Obligations.DescriptorsWellFormed : Prop :=
  ∀ (s t : State) (new : List Output) (xfers : List Xfer) (x : Xfer),
    step s = .next t → t.outputs = s.outputs ++ new → .busReq xfers ∈ new → x ∈ xfers →
    x.addr = s.params.slaveAddr ∧ 1 ≤ x.len ∧
    (x.dir = .write → x.wdata.length = x.len) ∧ (x.dir = .read → x.wdata = []) ∧
    (∀ b ∈ x.wdata, b ∈ ([0xE5, 0xE0, 0xE3, 0xE7, 0xFA, 0x0F, 0xFC, 0xC9] : List Byte)) ∧
    (0xFE : Byte) ∉ x.wdata

/-- R76, R77: the shape of every completion a step emits: DATA is 0 but for a byte result, RAW and VALUE are 0 but for
a measurement, and a failed or refused measurement carries its sentinel (R201). -/
def Obligations.CompletionShape : Prop :=
  ∀ (s t : State) (new : List Output) (c : Completion),
    step s = .next t → t.outputs = s.outputs ++ new → .cpl c ∈ new →
    (c.data ≠ 0 → c.status = .ok ∧ c.op ∈ ([0x1, 0x2, 0x8, 0x9] : List OpCode)) ∧
    (c.op ≠ 0x3 → c.op ≠ 0x4 → c.raw = 0 ∧ c.value = 0) ∧
    (c.op = 0x3 → c.status ≠ .ok → c.status ≠ .illegal → c.raw = 0xFFFF ∧ c.value = -1) ∧
    (c.op = 0x4 → c.status ≠ .ok → c.status ≠ .illegal → c.raw = 0 ∧ c.value = -1) ∧
    (c.status = .illegal → c.data = 0 ∧ c.raw = 0 ∧ c.value = 0)

/-- R155, R183, R201: in the exact representation a measurement's VALUE is the sentinel −1 exactly when the
measurement was not a success (an illegal word apart), and under MASKED no humidity success reports RAW = 0xFFFF. The
first holds in every representation VALUE_REPR of R182 that tells exact values apart. -/
def Obligations.SentinelUnambiguous : Prop :=
  ∀ (s t : State) (new : List Output) (c : Completion),
    step s = .next t → t.outputs = s.outputs ++ new → .cpl c ∈ new →
    ((c.op = 0x3 ∨ c.op = 0x4) → c.status ≠ .illegal → (c.value = -1 ↔ c.status ≠ .ok)) ∧
    (c.op = 0x3 → c.status = .ok → s.params.humRawReport = .masked → c.raw ≠ 0xFFFF) ∧
    (∀ (V : Type) (repr : Rat → V), Function.Injective repr → (c.op = 0x3 ∨ c.op = 0x4) → c.status ≠ .illegal →
      ((c.delivered repr).value = repr (-1) ↔ (c.delivered repr).status ≠ .ok))

/-- R203, R207: a step that reports BUS_ERROR or DATA_CORRUPTION emits that completion alone, ends in IDLE, and
touches neither flag. -/
def Obligations.FailureEndsTheRequest : Prop :=
  ∀ (s t : State) (new : List Output) (c : Completion),
    step s = .next t → t.outputs = s.outputs ++ new → .cpl c ∈ new →
    (c.status = .busError ∨ c.status = .dataCorruption) →
    new = [.cpl c] ∧ t.seqState = .idle ∧ t.initDone = s.initDone ∧ t.errSpurious = s.errSpurious

/-- R233: the 3-byte humidity read goes out only in a step that consumes a timer expiry in HUM_WAIT_SETTLE, and the
timer is armed only in a step that consumes the successful completion of the command write. -/
def Obligations.SettleGate : Prop :=
  ∀ (s t : State) (new : List Output), step s = .next t → t.outputs = s.outputs ++ new →
    (.busReq [⟨s.params.slaveAddr, .read, 3, true, []⟩] ∈ new →
      s.seqState = .humWaitSettle ∧ ∃ payload rest, s.inputs = .timerExpired payload :: rest) ∧
    (∀ ms payload, .timerStart ms payload ∈ new →
      ms = 25 ∧ payload = .ctxHum ∧ s.seqState = .humCmdSent ∧ ∃ rest, s.inputs = .busDone true [] :: rest)

/-! ## Accounts -/

/-- R146: one completion for each host request, now or when its request leaves flight, and none for anything else:
completions plus the request in flight grow by exactly the host requests consumed. -/
def Obligations.OneCompletionPerRequest : Prop :=
  ∀ (s t : State) (e : Event) (rest : List Event), s.inputs = e :: rest → step s = .next t →
    t.outputs.countP Output.isCpl + oneIf t.seqState.inFlight =
      s.outputs.countP Output.isCpl + oneIf s.seqState.inFlight + oneIf e.isHostReq

/-- R22: SEQ_STATE says what is outstanding: bus requests less bus completions consumed is one in the six states of
R22 and zero elsewhere, timer starts less expiries consumed is one in HUM_WAIT_SETTLE and zero elsewhere, each kept by
every step; and never both together. -/
def Obligations.OutstandingAccounts : Prop :=
  (∀ (s t : State) (e : Event) (rest : List Event), s.inputs = e :: rest → step s = .next t →
    t.outputs.countP Output.isBusReq + oneIf s.seqState.busOutstanding =
      s.outputs.countP Output.isBusReq + oneIf t.seqState.busOutstanding + oneIf e.isBusDone ∧
    t.outputs.countP Output.isTimerStart + oneIf s.seqState.timerArmed =
      s.outputs.countP Output.isTimerStart + oneIf t.seqState.timerArmed + oneIf e.isTimerExpired) ∧
  (∀ q : SeqState, ¬ (q.busOutstanding = true ∧ q.timerArmed = true))

/-! ## Invariants -/

/-- R143: away from IDLE the block is initialised; every step keeps it, a model fault included. -/
def Obligations.InitialisedWhenBusy : Prop := ∀ s : State, s.Inv → (hardwareNext s).Inv

/-- R23, R210: the timer is created exactly once, by the first INIT; every step keeps it. -/
def Obligations.TimerCreatedOnceKept : Prop :=
  ∀ s t : State, s.TimerCreatedOnce → step s = .next t → t.TimerCreatedOnce

/-- R81: the table of transactions is complete; every step keeps that every bus request so far stands in it. -/
def Obligations.BusRequestsStayInTable : Prop :=
  ∀ s t : State, s.BusReqsInTable → step s = .next t → t.BusReqsInTable

/-- R58, R146, R160: the outputs are always whole requests, each in one of its patterns, then a beginning of one, and
SEQ_STATE is the stage that beginning has reached; every step keeps it. -/
def Obligations.OutputProtocolKept : Prop :=
  ∀ s t : State, s.Inv → s.FollowsProtocol → step s = .next t → t.FollowsProtocol

/-- The four invariants hold at reset. -/
def Obligations.ResetMeetsInvariants : Prop :=
  State.reset.Inv ∧ State.reset.TimerCreatedOnce ∧ State.reset.BusReqsInTable ∧ State.reset.FollowsProtocol

/-! ## Whole-machine statements -/

/-- R159 with R140: the step is the transition table, both ways: from every state it answers a next state exactly when
a row of the table applies, and then the outputs, SEQ_STATE and INIT_DONE are the row's, BUF follows R25, and nothing
else changes. -/
def Obligations.StepIsTheTransitionTable : Prop :=
  ∀ (s t : State) (e : Event) (rest : List Event), s.inputs = e :: rest →
    (step s = .next t ↔ ∃ outs q d, TableRow s.params s.seqState s.initDone e outs q d ∧
      t = { s with
        seqState := q, initDone := d, buf := bufAfter e s.buf, inputs := rest, outputs := s.outputs ++ outs })

/-- R24, R25: BUF's old contents and ERR_SPURIOUS are never observable: two states that differ in nothing else have
the same outputs, states and inputs after any number of steps. -/
def Obligations.HiddenStateUnobservable : Prop :=
  ∀ (n : Nat) (s s' t : State), s.AgreeButHidden s' → runSteps n s = .next t →
    ∃ t', runSteps n s' = .next t' ∧ t.AgreeButHidden t'

/-- R236: no timeout: while only host requests come, a request in flight stays in its stage, whatever they are and
however many. -/
def Obligations.NoTimeout : Prop :=
  ∀ (ws : List ReqWord) (s t : State), s.seqState ≠ .idle → s.inputs = ws.map Event.hostReq →
    runSteps ws.length s = .next t → t.seqState = s.seqState ∧ t.buf = s.buf ∧ t.inputs = []

/-- R146, R160: a humidity request in an initialised, idle block, answered by its environment with a good read, is
complete after its four events, with exactly the outputs of the fourth pattern; and the run is clean if no spurious
event came before (R240). -/
def Obligations.HumidityRequestCompletes : Prop :=
  ∀ (s : State) (payload : Payload) (b0 b1 : Byte) (rest : List Event),
    s.seqState = .idle → s.initDone = true →
    s.inputs = .hostReq 0x300000 :: .busDone true [] :: .timerExpired payload ::
      .busDone true [b0, b1, compute16 (b0 ++ b1)] :: rest →
    ∃ t c, runSteps 4 s = .next t ∧ t.seqState = .idle ∧ t.inputs = rest ∧
      c.op = 0x3 ∧ c.status = .ok ∧ c.value = convH ((b0 ++ b1) &&& 0xFFFC) ∧
      t.outputs = s.outputs ++ [.busReq [⟨s.params.slaveAddr, .write, 1, true, [0xE5]⟩], .timerStart 25 .ctxHum,
        .busReq [⟨s.params.slaveAddr, .read, 3, true, []⟩], .cpl c] ∧
      (s.errSpurious = false → CleanRun 4 s t)

/-! ## The checksum engine -/

/-- The algebraic reading of 40_checksum.md section 1: for every seed and message, the chained checksum is
(seed·x^(8n) + M(x)·x⁸) mod x⁸+x⁵+x⁴+1. The form with the factor x⁸ is the spec's own reading (log 12). -/
def Obligations.CrcIsPolynomialRemainder : Prop :=
  ∀ (seed : Byte) (msg : List Byte),
    Gf2.ofByte (msg.foldl crc8Update seed) =
      (Gf2.ofByte seed * Polynomial.X ^ (8 * msg.length) + Gf2.ofBytes msg * Polynomial.X ^ 8) %ₘ Gf2.modulus

/-- The corner cases of CRC_UPDATE (40_checksum.md section 2), over all operands: the result is 0 exactly when STATE =
BYTE, depends on STATE ⊕ BYTE alone, and is a bijection of BYTE for each STATE. It rests on the spec's reading of the
form of the CRC (log 12). -/
def Obligations.CrcUpdateCornerCases : Prop :=
  (∀ s b : Byte, crc8Update s b = 0 ↔ s = b) ∧ (∀ s b : Byte, crc8Update s b = crc8Update 0x00 (s ^^^ b)) ∧
  ∀ s : Byte, Function.Bijective (crc8Update s)

/-- compute16 covers the bytes in the order they arrive on the bus (40_checksum.md section 1, 20_memory.md section 1),
and a humidity check is the same as a zero remainder with the check byte appended (section 3). -/
def Obligations.MeasurementCheckAppended : Prop :=
  (∀ b0 b1 : Byte, compute16 (be16 b0 b1) = crc8Update (crc8Update 0x00 b0) b1) ∧
  ∀ b0 b1 c : Byte, checkMeasurement b0 b1 c = true ↔
    crc8Update (crc8Update (crc8Update 0x00 b0) b1) c = 0

/-- R105: pair k of identifier sequence 1 is checked against the CRC of the data bytes r[0], r[2], …, r[2k], the state
carried and the check bytes not folded in. -/
def Obligations.IdentifierCheckOne : Prop :=
  ∀ r : Vector Byte 8, checkId1 r = true ↔
    r[1] = crc8Update 0x00 r[0] ∧
    r[3] = crc8Update (crc8Update 0x00 r[0]) r[2] ∧
    r[5] = crc8Update (crc8Update (crc8Update 0x00 r[0]) r[2]) r[4] ∧
    r[7] = crc8Update (crc8Update (crc8Update (crc8Update 0x00 r[0]) r[2]) r[4]) r[6]

/-- R106: identifier sequence 2 in both modes: with RESET_PER_GROUP each group is checked by compute16 of its own
bytes; with CARRIED the second group goes on from the first group's state. -/
def Obligations.IdentifierCheckTwo : Prop :=
  (∀ r : Vector Byte 6, checkId2 .resetPerGroup r = true ↔
    compute16 (be16 r[0] r[1]) = r[2] ∧ compute16 (be16 r[3] r[4]) = r[5]) ∧
  (∀ r : Vector Byte 6, checkId2 .carried r = true ↔
    compute16 (be16 r[0] r[1]) = r[2] ∧
    crc8Update (crc8Update (crc8Update (crc8Update 0x00 r[0]) r[1]) r[3]) r[4] = r[5])

/-- R122: the identifier is the most significant byte of the 32-bit value of sequence 2's data bytes, the first byte
received. -/
def Obligations.IdentifierIsTopByte : Prop :=
  ∀ r : Vector Byte 6, id32 r = r[0] ++ r[1] ++ r[3] ++ r[4] ∧ identifier r = (id32 r).extractLsb' 24 8 ∧
    identifier r = r[0]

/-! ## Conversion -/

/-- R158: MaskH clears bits 1 and 0 and no other. -/
def Obligations.MaskClearsTwoBits : Prop :=
  ∀ (raw : RawCode) (i : Nat), maskH raw = raw &&& 0xFFFC ∧
    (maskH raw).getLsbD i = (decide (2 ≤ i) && raw.getLsbD i)

/-- R180: the humidity conversion: 125·m/65536 − 6, strictly increasing, from −6 to 1949571/16384 over the masked
codes. -/
def Obligations.HumidityConversion : Prop :=
  (∀ m : RawCode, convH m = 125 * (m.toNat : Rat) / 65536 - 6) ∧
  (∀ m n : RawCode, m.toNat < n.toNat → convH m < convH n) ∧
  (∀ raw : RawCode, -6 ≤ convH (maskH raw) ∧ convH (maskH raw) ≤ 1949571 / 16384) ∧
  (∀ m n : RawCode, n.toNat = m.toNat + 4 → convH n - convH m = 125 * 4 / 65536) ∧
  convH 0 = -6 ∧ convH 0xFFFC = 1949571 / 16384

/-- R181: the temperature conversion: 175.72·r/65536 − 46.85, strictly increasing, from −937/20 to
42227243/327680. -/
def Obligations.TemperatureConversion : Prop :=
  (∀ r : RawCode, convT r = (17572 / 100) * (r.toNat : Rat) / 65536 - 4685 / 100) ∧
  (∀ m n : RawCode, m.toNat < n.toNat → convT m < convT n) ∧
  (∀ r : RawCode, -937 / 20 ≤ convT r ∧ convT r ≤ 42227243 / 327680) ∧
  (∀ m n : RawCode, n.toNat = m.toNat + 1 → convT n - convT m = (17572 / 100) / 65536) ∧
  convT 0 = -937 / 20 ∧ convT 0xFFFF = 42227243 / 327680

/-! ## Reset -/

/-- R230: reset leaves IDLE, INIT_DONE = 0 and ERR_SPURIOUS = 0 and emits nothing; in the middle of a run, whatever BUF
then holds, the request in flight is abandoned without a completion. -/
def Obligations.ResetValues : Prop :=
  State.reset.seqState = .idle ∧ State.reset.initDone = false ∧ State.reset.errSpurious = false ∧
  State.reset.outputs = [] ∧
  ∀ (s : State) (b : Vector Byte 8),
    (s.afterReset b).seqState = .idle ∧ (s.afterReset b).initDone = false ∧
    (s.afterReset b).errSpurious = false ∧ (s.afterReset b).buf = b ∧
    (s.afterReset b).outputs = s.outputs ∧ (s.afterReset b).params = s.params ∧
    (s.afterReset b).inputs = s.inputs

/-- R230: a completion or an expiry that the environment delivers after a reset, for the abandoned request, is
unexpected. -/
def Obligations.LateEventAfterResetFaults : Prop :=
  ∀ (s : State) (b : Vector Byte 8) (e : Event) (rest : List Event), s.inputs = e :: rest →
    e.isHostReq = false → ∃ f, step (s.afterReset b) = .fault f ∧
      f.after = { s.afterReset b with inputs := rest, errSpurious := true }
end

