-- ==== Sys2Proof/Laws/Decode.lean ====
section
/-! SUPPORT. Fields and words: splitting a word into its fields and joining them are inverse to each other. -/

namespace Sys2Proof

/-- The high part of a concatenation. -/
theorem extract_high {n m : Nat} (x : BitVec n) (y : BitVec m) : (x ++ y).extractLsb' m n = x := by
  ext i hi
  simp [BitVec.getLsbD_append, BitVec.getLsbD_eq_getElem hi]

/-- The low part of a concatenation. -/
theorem extract_low {n m : Nat} (x : BitVec n) (y : BitVec m) : (x ++ y).extractLsb' 0 m = y := by
  ext i hi
  simp [BitVec.getLsbD_append, hi]

/-- The middle part of three. -/
theorem extract_mid {n m k : Nat} (x : BitVec n) (y : BitVec m) (z : BitVec k) :
    (x ++ y ++ z).extractLsb' k m = y := by
  ext i hi
  simp [BitVec.getLsbD_append, hi]

/-- The highest part of three. -/
theorem extract_top {n m k : Nat} (x : BitVec n) (y : BitVec m) (z : BitVec k) :
    (x ++ y ++ z).extractLsb' (m + k) n = x := by
  ext i hi
  have h : ¬ (m + k + i < k) := by omega
  have h2 : m + k + i - k = m + i := by omega
  simp [BitVec.getLsbD_append, h, h2, BitVec.getLsbD_eq_getElem hi]

/-- The two bytes of a 16-bit value, joined again. -/
theorem join_bytes (v : BitVec 16) : v.extractLsb' 8 8 ++ v.extractLsb' 0 8 = v := by
  have key : ∀ v : BitVec 16, (v.extractLsb' 8 8 ++ v.extractLsb' 0 8 : BitVec (8 + 8)) = v := by
    intro v
    apply BitVec.eq_of_getLsbD_eq
    intro i hi
    rw [BitVec.getLsbD_append]
    by_cases h : i < 8
    · simp [h]
    · have h8 : 8 + (i - 8) = i := by omega
      have hlt : i - 8 < 8 := by omega
      simp [h, h8, hlt]
  exact key v

/-- Splitting the word of some fields gives the fields. -/
theorem fieldsOfWord_wordOfFields (f : ReqFields) : fieldsOfWord (wordOfFields f) = f := by
  obtain ⟨op, rsv, opd⟩ := f
  have h1 : opField (wordOfFields ⟨op, rsv, opd⟩) = op := extract_top op rsv opd
  have h2 : (wordOfFields ⟨op, rsv, opd⟩).extractLsb' 16 4 = rsv := extract_mid op rsv opd
  have h3 : (wordOfFields ⟨op, rsv, opd⟩).extractLsb' 0 16 = opd := extract_low (op ++ rsv) opd
  simp only [fieldsOfWord, h1, h2, h3]

/-- Joining the fields of a word gives the word. -/
theorem wordOfFields_fieldsOfWord (w : ReqWord) : wordOfFields (fieldsOfWord w) = w := by
  have key : ∀ v : BitVec 24,
      (v.extractLsb' 20 4 ++ v.extractLsb' 16 4 ++ v.extractLsb' 0 16 : BitVec (4 + 4 + 16)) = v := by
    intro v
    apply BitVec.eq_of_getLsbD_eq
    intro i hi
    rw [BitVec.getLsbD_append, BitVec.getLsbD_append]
    by_cases h : i < 16
    · simp [h]
    · by_cases h2 : i - 16 < 4
      · have h16 : 16 + (i - 16) = i := by omega
        simp [h, h2, h16]
      · have h20 : 20 + (i - 16 - 4) = i := by omega
        have hlt : i - 16 - 4 < 4 := by omega
        simp [h, h2, h20, hlt]
  exact key w

/-- The word of CRC_COMPUTE16, as R82 writes it: 0x90, then VALUE. -/
theorem encode_crcCompute16 (value : RawCode) : encode (.crcCompute16 value) = (0x90#8 ++ value : BitVec 24) := by
  have h : (9#4 ++ 0#4 : BitVec 8) = 0x90#8 := by decide
  rw [← h]
  rfl

/-- The word of CRC_UPDATE, as R82 writes it: 0x80, then STATE, then BYTE. -/
theorem encode_crcUpdate (state byte : Byte) :
    encode (.crcUpdate state byte) = (0x80#8 ++ state ++ byte : BitVec 24) := by
  have h : (8#4 ++ 0#4 : BitVec 8) = 0x80#8 := by decide
  rw [← h]
  exact (BitVec.append_assoc (x₁ := (8#4 ++ 0#4 : BitVec 8)) (x₂ := state) (x₃ := byte)).symm ▸ rfl

end Sys2Proof
end

