-- ==== Sys2Proof/Laws/State.lean ====
section
/-! SUPPORT. What each update of the state leaves in each field: one lemma per field per update, so that no proof
unfolds a record update. -/

namespace Sys2Proof.Machine

open Sys2Proof

variable (s : State)

/-! `emit` writes `outputs` alone. -/

@[simp] theorem State.emit_seqState (outs : List Output) : (s.emit outs).seqState = s.seqState := rfl
@[simp] theorem State.emit_initDone (outs : List Output) : (s.emit outs).initDone = s.initDone := rfl
@[simp] theorem State.emit_errSpurious (outs : List Output) : (s.emit outs).errSpurious = s.errSpurious := rfl
@[simp] theorem State.emit_buf (outs : List Output) : (s.emit outs).buf = s.buf := rfl
@[simp] theorem State.emit_params (outs : List Output) : (s.emit outs).params = s.params := rfl
@[simp] theorem State.emit_inputs (outs : List Output) : (s.emit outs).inputs = s.inputs := rfl
@[simp] theorem State.emit_outputs (outs : List Output) : (s.emit outs).outputs = s.outputs ++ outs := rfl

/-! `goto` writes SEQ_STATE alone. -/

@[simp] theorem State.goto_seqState (q : SeqState) : (s.goto q).seqState = q := rfl
@[simp] theorem State.goto_initDone (q : SeqState) : (s.goto q).initDone = s.initDone := rfl
@[simp] theorem State.goto_errSpurious (q : SeqState) : (s.goto q).errSpurious = s.errSpurious := rfl
@[simp] theorem State.goto_buf (q : SeqState) : (s.goto q).buf = s.buf := rfl
@[simp] theorem State.goto_params (q : SeqState) : (s.goto q).params = s.params := rfl
@[simp] theorem State.goto_inputs (q : SeqState) : (s.goto q).inputs = s.inputs := rfl
@[simp] theorem State.goto_outputs (q : SeqState) : (s.goto q).outputs = s.outputs := rfl

/-! `setInitDone` writes INIT_DONE alone. -/

@[simp] theorem State.setInitDone_seqState : s.setInitDone.seqState = s.seqState := rfl
@[simp] theorem State.setInitDone_initDone : s.setInitDone.initDone = true := rfl
@[simp] theorem State.setInitDone_errSpurious : s.setInitDone.errSpurious = s.errSpurious := rfl
@[simp] theorem State.setInitDone_buf : s.setInitDone.buf = s.buf := rfl
@[simp] theorem State.setInitDone_params : s.setInitDone.params = s.params := rfl
@[simp] theorem State.setInitDone_inputs : s.setInitDone.inputs = s.inputs := rfl
@[simp] theorem State.setInitDone_outputs : s.setInitDone.outputs = s.outputs := rfl

/-! `setErrSpurious` writes ERR_SPURIOUS alone. -/

@[simp] theorem State.setErrSpurious_seqState : s.setErrSpurious.seqState = s.seqState := rfl
@[simp] theorem State.setErrSpurious_initDone : s.setErrSpurious.initDone = s.initDone := rfl
@[simp] theorem State.setErrSpurious_errSpurious : s.setErrSpurious.errSpurious = true := rfl
@[simp] theorem State.setErrSpurious_buf : s.setErrSpurious.buf = s.buf := rfl
@[simp] theorem State.setErrSpurious_params : s.setErrSpurious.params = s.params := rfl
@[simp] theorem State.setErrSpurious_inputs : s.setErrSpurious.inputs = s.inputs := rfl
@[simp] theorem State.setErrSpurious_outputs : s.setErrSpurious.outputs = s.outputs := rfl

/-! `storeRead` writes BUF alone. -/

@[simp] theorem State.storeRead_seqState (rdata : List Byte) : (s.storeRead rdata).seqState = s.seqState := rfl
@[simp] theorem State.storeRead_initDone (rdata : List Byte) : (s.storeRead rdata).initDone = s.initDone := rfl
@[simp] theorem State.storeRead_errSpurious (rdata : List Byte) : (s.storeRead rdata).errSpurious = s.errSpurious := rfl
@[simp] theorem State.storeRead_buf (rdata : List Byte) : (s.storeRead rdata).buf = fillBuf s.buf rdata := rfl
@[simp] theorem State.storeRead_params (rdata : List Byte) : (s.storeRead rdata).params = s.params := rfl
@[simp] theorem State.storeRead_inputs (rdata : List Byte) : (s.storeRead rdata).inputs = s.inputs := rfl
@[simp] theorem State.storeRead_outputs (rdata : List Byte) : (s.storeRead rdata).outputs = s.outputs := rfl

/-! `complete` writes `outputs` alone. -/

@[simp] theorem State.complete_seqState (c : Completion) : (s.complete c).seqState = s.seqState := rfl
@[simp] theorem State.complete_initDone (c : Completion) : (s.complete c).initDone = s.initDone := rfl
@[simp] theorem State.complete_errSpurious (c : Completion) : (s.complete c).errSpurious = s.errSpurious := rfl
@[simp] theorem State.complete_buf (c : Completion) : (s.complete c).buf = s.buf := rfl
@[simp] theorem State.complete_params (c : Completion) : (s.complete c).params = s.params := rfl
@[simp] theorem State.complete_inputs (c : Completion) : (s.complete c).inputs = s.inputs := rfl
@[simp] theorem State.complete_outputs (c : Completion) : (s.complete c).outputs = s.outputs ++ [.cpl c] := rfl

/-! `finish` writes `outputs` and SEQ_STATE. -/

@[simp] theorem State.finish_seqState (c : Completion) : (s.finish c).seqState = .idle := rfl
@[simp] theorem State.finish_initDone (c : Completion) : (s.finish c).initDone = s.initDone := rfl
@[simp] theorem State.finish_errSpurious (c : Completion) : (s.finish c).errSpurious = s.errSpurious := rfl
@[simp] theorem State.finish_buf (c : Completion) : (s.finish c).buf = s.buf := rfl
@[simp] theorem State.finish_params (c : Completion) : (s.finish c).params = s.params := rfl
@[simp] theorem State.finish_inputs (c : Completion) : (s.finish c).inputs = s.inputs := rfl
@[simp] theorem State.finish_outputs (c : Completion) : (s.finish c).outputs = s.outputs ++ [.cpl c] := rfl

/-! Error entry writes `outputs` and SEQ_STATE (R207). -/

@[simp] theorem State.failRequest_seqState (op : OpCode) (st : Status) : (s.failRequest op st).seqState = .idle := rfl
@[simp] theorem State.failRequest_initDone (op : OpCode) (st : Status) : (s.failRequest op st).initDone = s.initDone := rfl
@[simp] theorem State.failRequest_errSpurious (op : OpCode) (st : Status) : (s.failRequest op st).errSpurious = s.errSpurious := rfl
@[simp] theorem State.failRequest_buf (op : OpCode) (st : Status) : (s.failRequest op st).buf = s.buf := rfl
@[simp] theorem State.failRequest_params (op : OpCode) (st : Status) : (s.failRequest op st).params = s.params := rfl
@[simp] theorem State.failRequest_inputs (op : OpCode) (st : Status) : (s.failRequest op st).inputs = s.inputs := rfl
@[simp] theorem State.failRequest_outputs (op : OpCode) (st : Status) : (s.failRequest op st).outputs = s.outputs ++ [.cpl (failedCpl op st)] := rfl

/-! A refusal writes `outputs` alone (R141). -/

@[simp] theorem State.refuse_seqState (op : OpCode) (st : Status) : (s.refuse op st).seqState = s.seqState := rfl
@[simp] theorem State.refuse_initDone (op : OpCode) (st : Status) : (s.refuse op st).initDone = s.initDone := rfl
@[simp] theorem State.refuse_errSpurious (op : OpCode) (st : Status) : (s.refuse op st).errSpurious = s.errSpurious := rfl
@[simp] theorem State.refuse_buf (op : OpCode) (st : Status) : (s.refuse op st).buf = s.buf := rfl
@[simp] theorem State.refuse_params (op : OpCode) (st : Status) : (s.refuse op st).params = s.params := rfl
@[simp] theorem State.refuse_inputs (op : OpCode) (st : Status) : (s.refuse op st).inputs = s.inputs := rfl
@[simp] theorem State.refuse_outputs (op : OpCode) (st : Status) : (s.refuse op st).outputs = s.outputs ++ [.cpl (failedCpl op st)] := rfl

/-! Starting a stage writes `outputs` and SEQ_STATE. -/

@[simp] theorem State.startBus_seqState (xs : List Xfer) (q : SeqState) : (s.startBus xs q).seqState = q := rfl
@[simp] theorem State.startBus_initDone (xs : List Xfer) (q : SeqState) : (s.startBus xs q).initDone = s.initDone := rfl
@[simp] theorem State.startBus_errSpurious (xs : List Xfer) (q : SeqState) : (s.startBus xs q).errSpurious = s.errSpurious := rfl
@[simp] theorem State.startBus_buf (xs : List Xfer) (q : SeqState) : (s.startBus xs q).buf = s.buf := rfl
@[simp] theorem State.startBus_params (xs : List Xfer) (q : SeqState) : (s.startBus xs q).params = s.params := rfl
@[simp] theorem State.startBus_inputs (xs : List Xfer) (q : SeqState) : (s.startBus xs q).inputs = s.inputs := rfl
@[simp] theorem State.startBus_outputs (xs : List Xfer) (q : SeqState) : (s.startBus xs q).outputs = s.outputs ++ [.busReq xs] := rfl

/-! Taking an event writes `inputs` alone. -/

@[simp] theorem State.takeInput_seqState (rest : List Event) : (s.takeInput rest).seqState = s.seqState := rfl
@[simp] theorem State.takeInput_initDone (rest : List Event) : (s.takeInput rest).initDone = s.initDone := rfl
@[simp] theorem State.takeInput_errSpurious (rest : List Event) : (s.takeInput rest).errSpurious = s.errSpurious := rfl
@[simp] theorem State.takeInput_buf (rest : List Event) : (s.takeInput rest).buf = s.buf := rfl
@[simp] theorem State.takeInput_params (rest : List Event) : (s.takeInput rest).params = s.params := rfl
@[simp] theorem State.takeInput_inputs (rest : List Event) : (s.takeInput rest).inputs = rest := rfl
@[simp] theorem State.takeInput_outputs (rest : List Event) : (s.takeInput rest).outputs = s.outputs := rfl

/-! Placing a request writes `inputs` alone. -/

@[simp] theorem State.placeRequest_seqState (w : ReqWord) : (s.placeRequest w).seqState = s.seqState := rfl
@[simp] theorem State.placeRequest_initDone (w : ReqWord) : (s.placeRequest w).initDone = s.initDone := rfl
@[simp] theorem State.placeRequest_errSpurious (w : ReqWord) : (s.placeRequest w).errSpurious = s.errSpurious := rfl
@[simp] theorem State.placeRequest_buf (w : ReqWord) : (s.placeRequest w).buf = s.buf := rfl
@[simp] theorem State.placeRequest_params (w : ReqWord) : (s.placeRequest w).params = s.params := rfl
@[simp] theorem State.placeRequest_inputs (w : ReqWord) : (s.placeRequest w).inputs = .hostReq w :: s.inputs := rfl
@[simp] theorem State.placeRequest_outputs (w : ReqWord) : (s.placeRequest w).outputs = s.outputs := rfl

/-! A reset in a run writes the four registers (R230). -/

@[simp] theorem State.afterReset_seqState (b : Vector Byte 8) : (s.afterReset b).seqState = .idle := rfl
@[simp] theorem State.afterReset_initDone (b : Vector Byte 8) : (s.afterReset b).initDone = false := rfl
@[simp] theorem State.afterReset_errSpurious (b : Vector Byte 8) : (s.afterReset b).errSpurious = false := rfl
@[simp] theorem State.afterReset_buf (b : Vector Byte 8) : (s.afterReset b).buf = b := rfl
@[simp] theorem State.afterReset_params (b : Vector Byte 8) : (s.afterReset b).params = s.params := rfl
@[simp] theorem State.afterReset_inputs (b : Vector Byte 8) : (s.afterReset b).inputs = s.inputs := rfl
@[simp] theorem State.afterReset_outputs (b : Vector Byte 8) : (s.afterReset b).outputs = s.outputs := rfl

end Sys2Proof.Machine
end

