-- ==== Sys2Proof/Laws/Ops.lean ====
section
/-! SUPPORT. One lemma per shared operation, saying once everything it can do; proofs cite these instead of unfolding
the operation. -/

namespace Sys2Proof.Machine

open Sys2Proof

/-! ## The transfer buffer (R25) -/

/-- BUF[i] after a read: rdata[i] if there is one, else as before. -/
theorem fillBuf_getElem (buf : Vector Byte 8) (rdata : List Byte) (i : Nat) (h : i < 8) :
    (fillBuf buf rdata)[i] = rdata.getD i buf[i] := by
  have : i = 0 ∨ i = 1 ∨ i = 2 ∨ i = 3 ∨ i = 4 ∨ i = 5 ∨ i = 6 ∨ i = 7 := by omega
  rcases this with rfl | rfl | rfl | rfl | rfl | rfl | rfl | rfl <;> rfl

/-- A read of all eight bytes leaves nothing of the old buffer. -/
theorem fillBuf_eight (buf : Vector Byte 8) (b0 b1 b2 b3 b4 b5 b6 b7 : Byte) :
    fillBuf buf [b0, b1, b2, b3, b4, b5, b6, b7] = #v[b0, b1, b2, b3, b4, b5, b6, b7] := rfl

/-- An empty read leaves the buffer as it was. -/
theorem fillBuf_nil (buf : Vector Byte 8) : fillBuf buf [] = buf := by
  apply Vector.ext
  intro i h
  rw [fillBuf_getElem buf [] i h]
  rfl

/-! ## Refusing, starting, ending -/

/-- A sequencer request does one of three things, decided by SEQ_STATE and INIT_DONE (R140, R143). -/
theorem State.request_cases (s : State) (op : OpCode) (xs : List Xfer) (q : SeqState) :
    (s.seqState ≠ .idle ∧ s.request op xs q = s.refuse op .busy) ∨
    (s.seqState = .idle ∧ s.initDone = false ∧ s.request op xs q = s.refuse op .notInit) ∨
    (s.seqState = .idle ∧ s.initDone = true ∧ s.request op xs q = s.startBus xs q) := by
  unfold State.request
  by_cases hq : s.seqState = .idle
  · cases hd : s.initDone <;> simp [hq]
  · simp [hq]

/-- An unexpected event never answers a next state. -/
theorem State.unexpected_ne_next (s t : State) (f : State → Fault) : s.unexpected f ≠ .next t := by
  unfold State.unexpected
  exact fun h => nomatch h

/-! ## Events (R140) -/

/-- A decoded request is executed. -/
theorem hostRequest_of_ok (w : ReqWord) (i : Instr) (s : State) (h : decode w = .ok i) :
    hostRequest w s = exec i s := by
  simp [hostRequest, h]

/-- An illegal request is completed ILLEGAL. -/
theorem hostRequest_of_error (w : ReqWord) (e : Illegal) (s : State) (h : decode w = .error e) :
    hostRequest w s = .next (s.complete (illegalCpl w)) := by
  simp [hostRequest, h]

/-- A bus completion answers a next state exactly where a transaction is outstanding and the length fits. -/
theorem busCompletion_next_iff (ok : Bool) (rdata : List Byte) (s t : State) :
    busCompletion ok rdata s = .next t ↔
      ∃ n, s.seqState.readLen = some n ∧ (ok = true → rdata.length = n) ∧ t = busEffect ok rdata s := by
  unfold busCompletion State.unexpected
  cases h : s.seqState.readLen with
  | none => simp
  | some n =>
    by_cases hc : ok = true ∧ rdata.length ≠ n
    · simp only [hc, ne_eq, not_false_eq_true, and_self, if_true]
      constructor
      · exact fun h => nomatch h
      · rintro ⟨m, hm, hl, -⟩
        exact absurd (hl trivial) (by simpa using (Option.some.inj hm) ▸ hc.2)
    · simp only [hc, if_false, Host.Outcome.next.injEq]
      constructor
      · intro ht
        exact ⟨n, rfl, fun ho => by by_contra hne; exact hc ⟨ho, hne⟩, ht.symm⟩
      · rintro ⟨m, -, -, ht⟩
        exact ht.symm

/-- An expiry answers a next state exactly in HUM_WAIT_SETTLE. -/
theorem timerExpiry_next_iff (p : Payload) (s t : State) :
    timerExpiry p s = .next t ↔ s.seqState = .humWaitSettle ∧ t = settleDone s := by
  unfold timerExpiry State.unexpected
  by_cases h : s.seqState = .humWaitSettle
  · simp [h, eq_comm]
  · simp [h]

end Sys2Proof.Machine
end

