-- ==== Sys2Proof/Laws/PerInstr.lean ====
section
/-! SUPPORT. Facts about every operation as syntax, one lemma per constructor. -/

namespace Sys2Proof.Laws

open Sys2Proof

/-- The encoder gives every operation well-formed fields (R74): an assigned OP, RSV 0, and an OPERAND only where the
operation takes one. -/
def LegalFields.Statement (i : Instr) : Prop := (encodeFields i).wf = true

theorem LegalFields.init : LegalFields.Statement .init := rfl
theorem LegalFields.readUserReg : LegalFields.Statement .readUserReg := rfl
theorem LegalFields.readDeviceId : LegalFields.Statement .readDeviceId := rfl
theorem LegalFields.readHumidity : LegalFields.Statement .readHumidity := rfl
theorem LegalFields.readTemperature : LegalFields.Statement .readTemperature := rfl
theorem LegalFields.crcUpdate (state byte : Byte) : LegalFields.Statement (.crcUpdate state byte) := rfl
theorem LegalFields.crcCompute16 (value : RawCode) : LegalFields.Statement (.crcCompute16 value) := rfl

end Sys2Proof.Laws
end

