-- ==== Sys2Proof/Laws/Step.lean ====
section
/-! SUPPORT. What a step can do, said once: the inversion lemma every invariant's proof starts from. -/

namespace Sys2Proof.Machine

open Sys2Proof

/-- With no event there is no change. -/
theorem step_nil (s : State) (h : s.inputs = []) : step s = .next s := by simp [step, h]

/-- With an event, the step is what the event does to the state it was taken from. -/
theorem step_cons (s : State) (e : Event) (rest : List Event) (h : s.inputs = e :: rest) :
    step s = consume e (s.takeInput rest) := by simp [step, h]

/-- A step that answers a next state waited, executed a decoded request, completed an illegal one, consumed an
expected bus completion, or consumed the expected expiry. -/
theorem step_next_cases (s t : State) (h : step s = .next t) :
    (s.inputs = [] ∧ t = s) ∨
    (∃ w i rest, s.inputs = .hostReq w :: rest ∧ decode w = .ok i ∧ exec i (s.takeInput rest) = .next t) ∨
    (∃ w e rest, s.inputs = .hostReq w :: rest ∧ decode w = .error e ∧
      t = (s.takeInput rest).complete (illegalCpl w)) ∨
    (∃ ok rdata n rest, s.inputs = .busDone ok rdata :: rest ∧ s.seqState.readLen = some n ∧
      (ok = true → rdata.length = n) ∧ t = busEffect ok rdata (s.takeInput rest)) ∨
    (∃ p rest, s.inputs = .timerExpired p :: rest ∧ s.seqState = .humWaitSettle ∧
      t = settleDone (s.takeInput rest)) := by
  cases hi : s.inputs with
  | nil =>
    rw [step_nil s hi] at h
    exact .inl ⟨rfl, (Host.Outcome.next.inj h).symm⟩
  | cons e rest =>
    rw [step_cons s e rest hi] at h
    cases e with
    | hostReq w =>
      cases hd : decode w with
      | ok i =>
        rw [consume, hostRequest_of_ok w i _ hd] at h
        exact .inr (.inl ⟨w, i, rest, rfl, hd, h⟩)
      | error e =>
        rw [consume, hostRequest_of_error w e _ hd] at h
        exact .inr (.inr (.inl ⟨w, e, rest, rfl, hd, (Host.Outcome.next.inj h).symm⟩))
    | busDone ok rdata =>
      obtain ⟨n, hn, hl, ht⟩ := (busCompletion_next_iff ok rdata _ t).1 h
      exact .inr (.inr (.inr (.inl ⟨ok, rdata, n, rest, rfl, hn, hl, ht⟩)))
    | timerExpired p =>
      obtain ⟨hq, ht⟩ := (timerExpiry_next_iff p _ t).1 h
      exact .inr (.inr (.inr (.inr ⟨p, rest, rfl, hq, ht⟩)))

end Sys2Proof.Machine
end

