-- ==== Sys2Proof/Laws/Run.lean ====
section
/-! SUPPORT. Runs of several steps. -/

namespace Sys2Proof.Machine

open Sys2Proof

/-- The host's run of any core goes on from a next state. -/
theorem coreRun_next (M : Host.Core) (n : Nat) (s t : M.State) (h : M.step s = .next t) :
    M.run (n + 1) s = M.run n t := by simp [Host.Core.run, h]

/-- The host's run of any core ends at a fault. -/
theorem coreRun_fault (M : Host.Core) (n : Nat) (s : M.State) (f : M.Fault) (h : M.step s = .fault f) :
    M.run (n + 1) s = .fault f := by simp [Host.Core.run, h]

/-- The host's run of any core ends at a refusal. -/
theorem coreRun_refused (M : Host.Core) (n : Nat) (s : M.State) (r : M.Refusal) (h : M.step s = .refused r) :
    M.run (n + 1) s = .refused r := by simp [Host.Core.run, h]

/-- The block's run is the host's run of its core. -/
theorem runSteps_eq_core_run (n : Nat) (s : State) : runSteps n s = Host.Core.run Sys2Proof.core n s := by
  induction n generalizing s with
  | zero => rfl
  | succ n ih =>
    cases h : step s with
    | next t =>
      refine Eq.trans ?_ (coreRun_next Sys2Proof.core n s t h).symm
      rw [← ih t]
      simp [runSteps, h]
    | fault f =>
      refine Eq.trans ?_ (coreRun_fault Sys2Proof.core n s f h).symm
      simp only [runSteps, h]
      rfl
    | refused r =>
      refine Eq.trans ?_ (coreRun_refused Sys2Proof.core n s r h).symm
      simp only [runSteps, h]
      rfl

/-- A run whose first step answers a next state goes on from it. -/
theorem runSteps_succ (n : Nat) (s t : State) (h : step s = .next t) : runSteps (n + 1) s = runSteps n t := by
  simp [runSteps, h]

/-- Reading outputs in two parts. -/
theorem trackOutputs_append (p : Params) (q : SeqState) (a b : List Output) :
    trackOutputs p q (a ++ b) = (trackOutputs p q a).bind (fun q' => trackOutputs p q' b) := by
  induction a generalizing q with
  | nil => rfl
  | cons o rest ih =>
    simp only [List.cons_append, trackOutputs]
    cases trackOutput p q o with
    | none => rfl
    | some q' => exact ih q'

end Sys2Proof.Machine
end

