-- ==== Sys2Proof/Tests/Slice0.lean ====
section
/-! SUPPORT. Tests. Expected results are the spec's own: the word formats of 30_encoding.md, the examples of the rules
and the vectors of 95_test_vectors.md (named in each docstring); and for every statement with hypotheses a witness
that they can be met together. -/

namespace Sys2Proof.Tests

open Sys2Proof Sys2Proof.Machine

/-! ## Sample states -/

/-- The default parameters of 95_test_vectors.md with some address. -/
def sampleParams : Params :=
  { slaveAddr := 0x2A, tempCmd := .fromHumidityCycle, id2CrcChain := .resetPerGroup, humRawReport := .masked }

/-- Initialised, in `q`, with the given parameters and one event waiting; BUF holds other bytes than the reset's. -/
def stateWith (p : Params) (q : SeqState) (e : Event) : State :=
  { seqState := q, initDone := true, errSpurious := false, buf := #v[1, 2, 3, 4, 5, 6, 7, 8]
    params := p, inputs := [e], outputs := [] }

/-- Initialised, in `q`, default parameters, one event waiting. -/
def at_ (q : SeqState) (e : Event) : State := stateWith sampleParams q e

/-- The outputs and the SEQ_STATE after one step; nothing for a step that does not answer a next state. -/
def seen : Result → Option (List Output × SeqState)
  | .next t => some (t.outputs, t.seqState)
  | .fault _ => none
  | .refused _ => none

/-- BUF after one step. -/
def bufSeen : Result → Option (List Byte)
  | .next t => some t.buf.toList
  | .fault _ => none
  | .refused _ => none

/-! ## Well-formedness: each check refuses a term -/

/-- R74: a reserved OP. -/
theorem test_wf_reserved_op : (⟨0x5, 0, 0⟩ : ReqFields).wf = false ∧ (⟨0x5, 0, 0⟩ : ReqFields).opAssigned = false := by
  decide

/-- R74: RSV ≠ 0. -/
theorem test_wf_reserved_field : (⟨0x8, 1, 0⟩ : ReqFields).wf = false ∧ (⟨0x8, 1, 0⟩ : ReqFields).rsvZero = false := by
  decide

/-- R74: OPERAND ≠ 0 for READ_HUMIDITY. -/
theorem test_wf_operand : (⟨0x3, 0, 1⟩ : ReqFields).wf = false ∧ (⟨0x3, 0, 1⟩ : ReqFields).operandAllowed = false := by
  decide

/-- R74: a CRC word is legal with any operand. -/
theorem test_wf_crc : (⟨0x9, 0, 0xFFFF⟩ : ReqFields).wf = true := by decide

/-! ## Decoding and encoding: words written out from R70 to R72 and R82, field by field OP, RSV, OPERAND -/

theorem test_decode_init : decode (0x0#4 ++ 0x0#4 ++ 0x0000#16) = .ok .init := by decide
theorem test_decode_userReg : decode (0x1#4 ++ 0x0#4 ++ 0x0000#16) = .ok .readUserReg := by decide
theorem test_decode_deviceId : decode (0x2#4 ++ 0x0#4 ++ 0x0000#16) = .ok .readDeviceId := by decide
theorem test_decode_humidity : decode (0x3#4 ++ 0x0#4 ++ 0x0000#16) = .ok .readHumidity := by decide
theorem test_decode_temperature : decode (0x4#4 ++ 0x0#4 ++ 0x0000#16) = .ok .readTemperature := by decide

/-- V-DEC20: STATE is the high byte of OPERAND. -/
theorem test_decode_crcUpdate : decode 0x801234 = .ok (.crcUpdate 0x12 0x34) := by decide

/-- The example of R103. -/
theorem test_decode_crcCompute16 : decode 0x905A00 = .ok (.crcCompute16 0x5A00) := by decide

/-- V-DEC2, V-DEC3, V-DEC5, V-DEC8, V-DEC9: the illegal words, each by its reason. -/
theorem test_decode_illegal :
    decode 0x000001 = .error .operandNotZero ∧ decode 0x010000 = .error .reservedField ∧
    decode 0x500000 = .error .reservedOp ∧ decode 0x810000 = .error .reservedField ∧
    decode 0x9FFFFF = .error .reservedField := by decide

/-- R82: the words of the CRC requests. -/
theorem test_encode_crc :
    encode (.crcUpdate 0x5A 0xA5) = 0x805AA5 ∧ encode (.crcCompute16 0x683A) = 0x90683A := by decide

/-- The opcode table's row for CRC_UPDATE, by number. -/
theorem test_tableWord : decodeTableWord 24 0x8000FF = some (.crcUpdate 0x00 0xFF) ∧
    decodeTableWord 24 0x300001 = none := by decide

/-! ## The checksum engine -/

/-- V-CRC2, V-CRC3, V-CRC4, V-CRC12. -/
theorem test_crc8Update : crc8Update 0x00 0x01 = 0x31 ∧ crc8Update 0x00 0x80 = 0x7A ∧
    crc8Update 0x00 0xFF = 0xAC ∧ crc8Update 0x12 0x34 = 0x20 := by decide +kernel

/-- V-C16-2, V-C16-3, V-C16-5, V-C16-10, V-GK2, V-GK3. -/
theorem test_compute16 : compute16 0xFFFF = 0x2D ∧ compute16 0x5A00 = 0x09 ∧ compute16 0xFF00 = 0x81 ∧
    compute16 0xABCD = 0xEE ∧ compute16 0x683A = 0x7C ∧ compute16 0x4E85 = 0x6B := by decide +kernel

/-- V-ID1, V-ID4, V-ID5: the state is carried over the pairs and the check bytes are not folded in. -/
theorem test_checkId1 :
    checkId1 #v[0x12, 0x21, 0x34, 0xB6, 0x56, 0xC1, 0x78, 0x37] = true ∧
    checkId1 #v[0x12, 0x21, 0x34, 0xB6, 0x56, 0xC1, 0x78, 0x38] = false ∧
    checkId1 #v[0x12, 0x21, 0x34, 0x01, 0x56, 0xD8, 0x78, 0x41] = false := by decide +kernel

/-- V-ID1, V-ID1c, V-ID7, V-ID8: the two modes of ID2_CRC_CHAIN. -/
theorem test_checkId2 :
    checkId2 .resetPerGroup #v[0x15, 0xFF, 0xB5, 0x3C, 0x2A, 0x5B] = true ∧
    checkId2 .carried #v[0x15, 0xFF, 0xB5, 0x3C, 0x2A, 0xBD] = true ∧
    checkId2 .resetPerGroup #v[0x15, 0xFF, 0xB5, 0x3C, 0x2A, 0xBD] = false ∧
    checkId2 .carried #v[0x15, 0xFF, 0xB5, 0x3C, 0x2A, 0x5B] = false := by decide +kernel

/-! ## Conversion -/

/-- E3, V-H9, V-H13. -/
theorem test_convH : convH 0xFFFC = 1949571 / 16384 ∧ convH 0x6A2C = 751071 / 16384 ∧
    convH 0x7C80 = 28053 / 512 := by decide +kernel

/-- V-T2, V-T4, V-T5, V-T8. -/
theorem test_convT : convT 0xFFFF = 42227243 / 327680 ∧ convT 0x0001 = -76754647 / 1638400 ∧
    convT 0x6A2F = 42655879 / 1638400 ∧ convT 0x4000 = -73 / 25 := by decide +kernel

/-! ## One step of each operation -/

/-- P5 line 6: the first INIT. -/
theorem test_init_first : seen (step (State.reset.placeRequest 0x000000)) =
    some ([.timerCreate, .cpl ⟨0x0, .ok, 0, 0, 0⟩], .idle) := rfl

/-- V-DEC19: INIT in HUM_READING. -/
theorem test_init_again : seen (step (at_ .humReading (.hostReq 0x000000))) =
    some ([.cpl ⟨0x0, .ok, 0, 0, 0⟩], .humReading) := rfl

/-- V-UR: the request. -/
theorem test_userReg_request : seen (step (at_ .idle (.hostReq 0x100000))) =
    some ([.busReq [⟨0x2A, .write, 1, false, [0xE7]⟩, ⟨0x2A, .read, 1, true, []⟩]], .uregXfer) := rfl

/-- V-UR1: the completion, and BUF[0]. -/
theorem test_userReg_done :
    seen (step (at_ .uregXfer (.busDone true [0x3A]))) = some ([.cpl ⟨0x1, .ok, 0x3A, 0, 0⟩], .idle) ∧
    bufSeen (step (at_ .uregXfer (.busDone true [0x3A]))) = some [0x3A, 2, 3, 4, 5, 6, 7, 8] := ⟨rfl, rfl⟩

/-- P2 line 3: sequence 1 rejected, no second sequence. -/
theorem test_deviceId_corrupt :
    seen (step (at_ .idSeq1 (.busDone true [0x12, 0x21, 0x34, 0xB7, 0x56, 0xC1, 0x78, 0x37]))) =
    some ([.cpl ⟨0x2, .dataCorruption, 0, 0, 0⟩], .idle) := by decide +kernel

/-- P2 line 6: the identifier. -/
theorem test_deviceId_done :
    seen (step (at_ .idSeq2 (.busDone true [0x15, 0xFF, 0xB5, 0x3C, 0x2A, 0x5B]))) =
    some ([.cpl ⟨0x2, .ok, 0x15, 0, 0⟩], .idle) := by decide +kernel

/-- V-H3: the check covers the unmasked code, and RAW is masked or not by HUM_RAW_REPORT. -/
theorem test_humidity_done :
    seen (step (at_ .humReading (.busDone true [0x5A, 0x03, 0x5A]))) =
      some ([.cpl ⟨0x3, .ok, 0, 0x5A00, 4857 / 128⟩], .idle) ∧
    seen (step (stateWith { sampleParams with humRawReport := .unmasked } .humReading
      (.busDone true [0x5A, 0x03, 0x5A]))) = some ([.cpl ⟨0x3, .ok, 0, 0x5A03, 4857 / 128⟩], .idle) := by
  decide +kernel

/-- V-DEC15: READ_HUMIDITY refused BUSY with its sentinel. -/
theorem test_humidity_busy : seen (step (at_ .humWaitSettle (.hostReq 0x300000))) =
    some ([.cpl ⟨0x3, .busy, 0, 0xFFFF, -1⟩], .humWaitSettle) := rfl

/-- V-T0: TEMP_CMD = 0xE3 changes the written byte. -/
theorem test_temperature_request :
    seen (step (stateWith { sampleParams with tempCmd := .direct } .idle (.hostReq 0x400000))) =
    some ([.busReq [⟨0x2A, .write, 1, false, [0xE3]⟩, ⟨0x2A, .read, 2, true, []⟩]], .tempXfer) := rfl

/-- V-T5: the temperature code is not masked (its value is in test_convT). -/
theorem test_temperature_done : seen (step (at_ .tempXfer (.busDone true [0x6A, 0x2F]))) =
    some ([.cpl ⟨0x4, .ok, 0, 0x6A2F, convT 0x6A2F⟩], .idle) := rfl

/-- V-DEC20: CRC_UPDATE in HUM_CMD_SENT. -/
theorem test_crcUpdate : seen (step (at_ .humCmdSent (.hostReq 0x801234))) =
    some ([.cpl ⟨0x8, .ok, 0x20, 0, 0⟩], .humCmdSent) := by decide +kernel

/-- P3 line 5: CRC_COMPUTE16 in HUM_WAIT_SETTLE. -/
theorem test_crcCompute16 : seen (step (at_ .humWaitSettle (.hostReq 0x906A2C))) =
    some ([.cpl ⟨0x9, .ok, 0x40, 0, 0⟩], .humWaitSettle) := by decide +kernel

/-- V-DEC4: an illegal word is not BUSY even with a request in flight. -/
theorem test_illegal : seen (step (at_ .humReading (.hostReq 0x300001))) =
    some ([.cpl ⟨0x3, .illegal, 0, 0, 0⟩], .humReading) := rfl

/-- V-ID12: a short read is a fault, ERR_SPURIOUS is set and SEQ_STATE stays. -/
theorem test_badReadLength : step (at_ .idSeq2 (.busDone true [0x15, 0xFF, 0xB5, 0x3C, 0x2A])) =
    .fault (.badReadLength { at_ .idSeq2 (.busDone true []) with inputs := [], errSpurious := true }) := rfl

/-- A `bus fail` in a waiting state is never spurious, whatever its rdata (V-SP, last paragraph). -/
theorem test_failed_any_length : seen (step (at_ .humReading (.busDone false [0x5A]))) =
    some ([.cpl ⟨0x3, .busError, 0, 0xFFFF, -1⟩], .idle) := rfl

/-! ## Witnesses: the hypotheses of each statement can be met together -/

theorem witness_DecodedWordIsEncoding : decode 0x801234 = .ok (.crcUpdate 0x12 0x34) := by decide

theorem witness_StepRunsDecodedRequest :
    (at_ .idle (.hostReq 0x200000)).inputs = .hostReq 0x200000 :: [] ∧ decode 0x200000 = .ok .readDeviceId :=
  ⟨rfl, by decide⟩

theorem witness_PlacedWordIsRunNext : decodeTableWord 24 0x905A00 = some (.crcCompute16 0x5A00) := by decide

theorem witness_NoEventNoChange : State.reset.inputs = [] := rfl

/-- One word for each item of R74, at a boundary of its range. -/
theorem witness_IllegalWordIsCompleted :
    (at_ .humReading (.hostReq 0x500000)).inputs = .hostReq 0x500000 :: [] ∧
    IllegalWord 0x500000 ∧ IllegalWord 0xF00000 ∧ IllegalWord 0x010000 ∧ IllegalWord 0x400001 := by
  refine ⟨rfl, ?_, ?_, ?_, ?_⟩ <;> unfold IllegalWord <;> decide

theorem witness_UserRegisterRead :
    (at_ .uregXfer (.busDone true [0xFF])).seqState = .uregXfer ∧
    (at_ .uregXfer (.busDone true [0xFF])).inputs = .busDone true [0xFF] :: [] ∧
    (at_ .uregXfer (.busDone false [])).seqState = .uregXfer ∧
    (at_ .uregXfer (.busDone false [])).inputs = .busDone false [] :: [] := ⟨rfl, rfl, rfl, rfl⟩

theorem witness_DeviceIdSequenceOne :
    (at_ .idSeq1 (.busDone true [0, 0, 0, 0, 0, 0, 0, 0])).seqState = .idSeq1 ∧
    (at_ .idSeq1 (.busDone true [0, 0, 0, 0, 0, 0, 0, 0])).inputs = .busDone true [0, 0, 0, 0, 0, 0, 0, 0] :: [] ∧
    checkId1 #v[0, 0, 0, 0, 0, 0, 0, 0] = true ∧ checkId1 #v[0, 1, 0, 0, 0, 0, 0, 0] = false ∧
    (at_ .idSeq1 (.busDone false [])).seqState = .idSeq1 ∧
    (at_ .idSeq1 (.busDone false [])).inputs = .busDone false [] :: [] :=
  ⟨rfl, rfl, by decide +kernel, by decide +kernel, rfl, rfl⟩

theorem witness_DeviceIdSequenceTwo :
    (at_ .idSeq2 (.busDone true [0, 0, 0, 0, 0, 0])).seqState = .idSeq2 ∧
    (at_ .idSeq2 (.busDone true [0, 0, 0, 0, 0, 0])).inputs = .busDone true [0, 0, 0, 0, 0, 0] :: [] ∧
    checkId2 .resetPerGroup #v[0, 0, 0, 0, 0, 0] = true ∧ checkId2 .carried #v[0, 0, 0, 0, 0, 1] = false ∧
    (at_ .idSeq2 (.busDone false [])).seqState = .idSeq2 ∧
    (at_ .idSeq2 (.busDone false [])).inputs = .busDone false [] :: [] :=
  ⟨rfl, rfl, by decide +kernel, by decide +kernel, rfl, rfl⟩

theorem witness_HumidityCommandCompletion :
    (at_ .humCmdSent (.busDone true [])).seqState = .humCmdSent ∧
    (at_ .humCmdSent (.busDone true [])).inputs = .busDone true [] :: [] ∧
    (at_ .humCmdSent (.busDone false [])).inputs = .busDone false [] :: [] := ⟨rfl, rfl, rfl⟩

theorem witness_HumiditySettled :
    (at_ .humWaitSettle (.timerExpired (.other 7))).seqState = .humWaitSettle ∧
    (at_ .humWaitSettle (.timerExpired (.other 7))).inputs = .timerExpired (.other 7) :: [] := ⟨rfl, rfl⟩

theorem witness_HumidityReadCompletion :
    (at_ .humReading (.busDone true [0xFF, 0xFF, 0x2D])).seqState = .humReading ∧
    (at_ .humReading (.busDone true [0xFF, 0xFF, 0x2D])).inputs = .busDone true [0xFF, 0xFF, 0x2D] :: [] ∧
    compute16 0xFFFF = 0x2D ∧ compute16 0x0000 ≠ 0x01 ∧
    (at_ .humReading (.busDone false [])).inputs = .busDone false [] :: [] := ⟨rfl, rfl, by decide +kernel, by decide +kernel, rfl⟩

theorem witness_TemperatureCompletion :
    (at_ .tempXfer (.busDone true [0, 0])).seqState = .tempXfer ∧
    (at_ .tempXfer (.busDone true [0, 0])).inputs = .busDone true [0, 0] :: [] ∧
    (at_ .tempXfer (.busDone false [])).inputs = .busDone false [] :: [] := ⟨rfl, rfl, rfl⟩

theorem witness_BusyRefusal : (at_ .humCmdSent (.hostReq 0x300000)).seqState ≠ .idle := by decide

theorem witness_NotInitRefusal : State.reset.seqState = .idle ∧ State.reset.initDone = false := ⟨rfl, rfl⟩

/-- Refused BUSY, refused NOT_INIT and accepted. -/
theorem witness_SequencerRequestFrame :
    (∃ t, exec .readHumidity (at_ .idSeq1 (.hostReq 0x300000)) = .next t) ∧
    (∃ t, exec .readDeviceId State.reset = .next t) ∧
    (∃ t, exec .readTemperature (at_ .idle (.hostReq 0x400000)) = .next t ∧ t.seqState = .tempXfer) :=
  ⟨⟨_, rfl⟩, ⟨_, rfl⟩, _, rfl, rfl⟩

theorem witness_SingleStepOperationFrame :
    (∃ t, exec .init State.reset = .next t) ∧ (∃ t, exec (.crcUpdate 0xFF 0x00) State.reset = .next t) ∧
    ∃ t, exec (.crcCompute16 0xFFFF) State.reset = .next t := ⟨⟨_, rfl⟩, ⟨_, rfl⟩, _, rfl⟩

/-- A two-byte read: an index below the length and one above it; a failed read; a host request. -/
theorem witness_BufferWrites :
    (∃ t, step (at_ .tempXfer (.busDone true [0xAA, 0xBB])) = .next t ∧ t.buf[1] = 0xBB ∧ t.buf[2] = 3) ∧
    (∃ t, step (at_ .tempXfer (.busDone false [0xAA])) = .next t ∧ t.buf[0] = 1) ∧
    ∃ t, step (at_ .idle (.hostReq 0x400000)) = .next t :=
  ⟨⟨_, rfl, rfl, rfl⟩, ⟨_, rfl, rfl⟩, _, rfl⟩

/-- V-SP1, V-SP3, V-UR5, V-H18, V-SP4, V-SP5: each clause, at its boundaries. -/
theorem witness_UnexpectedEventsFault :
    (at_ .idle (.busDone true [])).seqState = .idle ∧
    (at_ .humWaitSettle (.busDone true [0x5A, 0x00, 0x09])).seqState = .humWaitSettle ∧
    (at_ .uregXfer (.busDone true [0x3A, 0x00])).seqState.readLen = some 1 ∧ [0x3A, 0x00].length ≠ 1 ∧
    (at_ .humCmdSent (.busDone true [0x00])).seqState.readLen = some 0 ∧ [0x00].length ≠ 0 ∧
    (at_ .idle (.timerExpired .ctxHum)).seqState ≠ .humWaitSettle ∧
    (at_ .humReading (.timerExpired .ctxHum)).seqState ≠ .humWaitSettle := by decide

/-- Both sides of each equivalence occur. -/
theorem witness_FaultExactlyOnContractBreach :
    (at_ .idle (.busDone false [])).inputs = .busDone false [] :: [] ∧
    Event.keepsContract .idle (.busDone false []) = false ∧
    Event.keepsContract .humReading (.busDone true [1, 2]) = false ∧
    Event.keepsContract .humReading (.busDone true [1, 2, 3]) = true ∧
    Event.keepsContract .humReading (.busDone false []) = true ∧
    Event.keepsContract .humReading (.timerExpired .ctxHum) = false ∧
    Event.keepsContract .humWaitSettle (.timerExpired .ctxHum) = true := by decide

theorem witness_ErrSpuriousSticky :
    (∃ f, step (at_ .idle (.timerExpired .ctxHum)) = .fault f) ∧
    (∃ t, step (at_ .idle (.hostReq 0x800000)) = .next t) ∧
    ({ at_ .idle (.hostReq 0x800000) with errSpurious := true } : State).errSpurious = true :=
  ⟨⟨_, rfl⟩, ⟨_, rfl⟩, rfl⟩

theorem witness_OutputsPerStep : ∃ t, step (State.reset.placeRequest 0x000000) = .next t ∧
    t.outputs = [.timerCreate, .cpl ⟨0x0, .ok, 0, 0, 0⟩] := ⟨_, rfl, rfl⟩

theorem witness_DescriptorsWellFormed : ∃ t, step (at_ .idle (.hostReq 0x200000)) = .next t ∧
    t.outputs = (at_ .idle (.hostReq 0x200000)).outputs ++
      [.busReq [⟨0x2A, .write, 2, false, [0xFA, 0x0F]⟩, ⟨0x2A, .read, 8, true, []⟩]] := ⟨_, rfl, rfl⟩

theorem witness_CompletionShape : ∃ t, step (at_ .uregXfer (.busDone true [0xFF])) = .next t ∧
    t.outputs = (at_ .uregXfer (.busDone true [0xFF])).outputs ++ [.cpl ⟨0x1, .ok, 0xFF, 0, 0⟩] := ⟨_, rfl, rfl⟩

/-- A measurement that succeeds and one that fails. -/
theorem witness_SentinelUnambiguous :
    (∃ t, step (at_ .tempXfer (.busDone true [0xFF, 0xFF])) = .next t ∧
      t.outputs = [.cpl ⟨0x4, .ok, 0, 0xFFFF, convT 0xFFFF⟩]) ∧
    (∃ t, step (at_ .tempXfer (.busDone false [])) = .next t ∧ t.outputs = [.cpl ⟨0x4, .busError, 0, 0, -1⟩]) ∧
    (at_ .humReading (.busDone false [])).params.humRawReport = .masked ∧
    Function.Injective (id : Rat → Rat) := ⟨⟨_, rfl, rfl⟩, ⟨_, rfl, rfl⟩, rfl, Function.injective_id⟩

/-- A humidity success under MASKED, the clause about RAW (V-H4). -/
theorem witness_SentinelUnambiguous_masked :
    seen (step (at_ .humReading (.busDone true [0xFF, 0xFF, 0x2D]))) =
      some ([.cpl ⟨0x3, .ok, 0, 0xFFFC, convH 0xFFFC⟩], .idle) := by decide +kernel

theorem witness_FailureEndsTheRequest :
    (∃ t, step (at_ .humCmdSent (.busDone false [])) = .next t ∧
      t.outputs = (at_ .humCmdSent (.busDone false [])).outputs ++ [.cpl ⟨0x3, .busError, 0, 0xFFFF, -1⟩]) ∧
    seen (step (at_ .humReading (.busDone true [0, 0, 1]))) =
      some ([.cpl ⟨0x3, .dataCorruption, 0, 0xFFFF, -1⟩], .idle) := ⟨⟨_, rfl, rfl⟩, by decide +kernel⟩

theorem witness_SettleGate :
    (∃ t, step (at_ .humWaitSettle (.timerExpired .ctxHum)) = .next t ∧
      t.outputs = (at_ .humWaitSettle (.timerExpired .ctxHum)).outputs ++
        [.busReq [⟨0x2A, .read, 3, true, []⟩]]) ∧
    ∃ t, step (at_ .humCmdSent (.busDone true [])) = .next t ∧ t.outputs = [.timerStart 25 .ctxHum] :=
  ⟨⟨_, rfl, rfl⟩, _, rfl, rfl⟩

/-- An accepted request, and the completion of one. -/
theorem witness_OneCompletionPerRequest :
    (at_ .idle (.hostReq 0x100000)).inputs = .hostReq 0x100000 :: [] ∧
    (∃ t, step (at_ .idle (.hostReq 0x100000)) = .next t) ∧
    ∃ t, step (at_ .uregXfer (.busDone true [7])) = .next t := ⟨rfl, ⟨_, rfl⟩, _, rfl⟩

theorem witness_OutstandingAccounts :
    (at_ .humWaitSettle (.timerExpired .ctxHum)).inputs = .timerExpired .ctxHum :: [] ∧
    ∃ t, step (at_ .humWaitSettle (.timerExpired .ctxHum)) = .next t := ⟨rfl, _, rfl⟩

/-- The invariants' premises hold of a state in flight, with outputs that led to it. -/
def inFlight : State :=
  { at_ .humCmdSent (.busDone true []) with
    outputs := [.timerCreate, .cpl ⟨0x0, .ok, 0, 0, 0⟩, .busReq [⟨0x2A, .write, 1, true, [0xE5]⟩]] }

theorem witness_InitialisedWhenBusy : inFlight.Inv ∧ inFlight.seqState ≠ .idle := ⟨fun _ => rfl, by decide⟩

theorem witness_TimerCreatedOnceKept : inFlight.TimerCreatedOnce ∧ ∃ t, step inFlight = .next t :=
  ⟨by unfold State.TimerCreatedOnce; decide, _, rfl⟩

theorem witness_BusRequestsStayInTable : inFlight.BusReqsInTable ∧ ∃ t, step inFlight = .next t := by
  refine ⟨?_, _, rfl⟩
  intro xfers h
  simp only [inFlight, List.mem_cons, List.not_mem_nil, or_false, reduceCtorEq, false_or, Output.busReq.injEq] at h
  subst h
  decide

theorem witness_OutputProtocolKept : inFlight.Inv ∧ inFlight.FollowsProtocol ∧ ∃ t, step inFlight = .next t :=
  ⟨fun _ => rfl, rfl, _, rfl⟩

theorem witness_StepIsTheTransitionTable : inFlight.inputs = .busDone true [] :: [] := rfl

/-- Two states that differ in BUF and ERR_SPURIOUS. -/
theorem witness_HiddenStateUnobservable :
    inFlight.AgreeButHidden { inFlight with buf := State.resetBuf, errSpurious := true } ∧
    inFlight ≠ { inFlight with buf := State.resetBuf, errSpurious := true } ∧
    ∃ t, runSteps 1 inFlight = .next t := ⟨⟨rfl, rfl, rfl, rfl, rfl⟩, by decide, _, rfl⟩

theorem witness_NoTimeout :
    (at_ .humReading (.hostReq 0x300000)).seqState ≠ .idle ∧
    (at_ .humReading (.hostReq 0x300000)).inputs = [0x300000].map Event.hostReq ∧
    ∃ t, runSteps 1 (at_ .humReading (.hostReq 0x300000)) = .next t := ⟨by decide, rfl, _, rfl⟩

theorem witness_HumidityRequestCompletes :
    ∃ s : State, s.seqState = .idle ∧ s.initDone = true ∧ s.errSpurious = false ∧
      s.inputs = .hostReq 0x300000 :: .busDone true [] :: .timerExpired .ctxHum ::
        .busDone true [0x5A, 0x00, compute16 (0x5A#8 ++ 0x00#8)] :: [] :=
  ⟨{ at_ .idle (.hostReq 0x300000) with
      inputs := [.hostReq 0x300000, .busDone true [], .timerExpired .ctxHum,
        .busDone true [0x5A, 0x00, compute16 (0x5A#8 ++ 0x00#8)]] }, rfl, rfl, rfl, rfl⟩

theorem witness_HumidityConversion : (0x0000 : RawCode).toNat < (0x0004 : RawCode).toNat ∧
    (0x0004 : RawCode).toNat = (0x0000 : RawCode).toNat + 4 := by decide

theorem witness_TemperatureConversion : (0xFFFE : RawCode).toNat < (0xFFFF : RawCode).toNat ∧
    (0xFFFF : RawCode).toNat = (0xFFFE : RawCode).toNat + 1 := by decide

theorem witness_LateEventAfterResetFaults :
    inFlight.inputs = .busDone true [] :: [] ∧ Event.isHostReq (.busDone true []) = false ∧
    Event.isHostReq (.timerExpired .ctxHum) = false := ⟨rfl, rfl, rfl⟩

end Sys2Proof.Tests
end

section
/-! The obligations of the spec's scope chapter. -/

namespace Sys2Proof.Machine

open Sys2Proof

/-- Settles O8: the step law for an empty input queue, at every state. -/
theorem noEventNoChange : Obligations.NoEventNoChange := by
  unfold Obligations.NoEventNoChange
  exact step_nil

end Sys2Proof.Machine
end

section
/-! What one consumed event does to the state, said once (R140): every frame and every account of the state chapter is
a case analysis over `EventEffect`. -/

namespace Sys2Proof.Machine

open Sys2Proof

/-! ## What SEQ_STATE says is outstanding (R22) -/

/-- A bus transaction and the timer are never outstanding together. -/
theorem SeqState.timerArmed_eq_false {q : SeqState} (h : q.busOutstanding = true) : q.timerArmed = false := by
  cases q <;> simp_all [SeqState.busOutstanding, SeqState.timerArmed]

/-- A state that expects a read length waits for the bus. -/
theorem SeqState.busOutstanding_of_readLen {q : SeqState} {n : Nat} (h : q.readLen = some n) :
    q.busOutstanding = true := by
  cases q <;> simp_all [SeqState.busOutstanding, SeqState.readLen]

/-- A state that waits for a transaction of R81 waits for the bus. -/
theorem SeqState.busOutstanding_of_pendingXfers {q : SeqState} {p : Params} {xs : List Xfer}
    (h : q.pendingXfers p = some xs) : q.busOutstanding = true := by
  cases q <;> simp_all [SeqState.busOutstanding, SeqState.pendingXfers]

/-! ## The effects -/

/-- `EventEffect s e t`: consuming `e` in `s`, from which it was already taken, may lead to `t`. The records a
completion carries are left open; the flags, BUF, SEQ_STATE and the kind and number of the outputs are not. -/
inductive EventEffect (s : State) : Event → State → Prop where
  /-- A request completed in its own step: a repeated INIT, a CRC operation, a refusal, an illegal word. -/
  | completed (w : ReqWord) (c : Completion) : EventEffect s (.hostReq w) (s.complete c)
  /-- The first INIT (R150). -/
  | firstInit (w : ReqWord) (c : Completion) (hd : s.initDone = false) :
      EventEffect s (.hostReq w) ((s.emit [.timerCreate]).setInitDone.complete c)
  /-- A sequencer request accepted (R143): the transaction it waits for is sent. -/
  | accepted (w : ReqWord) (xs : List Xfer) (q : SeqState) (hi : s.seqState = .idle) (hd : s.initDone = true)
      (hq : q.pendingXfers s.params = some xs) : EventEffect s (.hostReq w) (s.startBus xs q)
  /-- The transaction failed: the request ends (R207). -/
  | failed (rdata : List Byte) (c : Completion) (hb : s.seqState.busOutstanding = true) :
      EventEffect s (.busDone false rdata) (s.finish c)
  /-- The transaction succeeded and the request ends, well or with a bad checksum. -/
  | ended (rdata : List Byte) (c : Completion) (hb : s.seqState.busOutstanding = true) :
      EventEffect s (.busDone true rdata) ((s.storeRead rdata).finish c)
  /-- Identifier sequence 1 passed its check: sequence 2 (R121). -/
  | sequenceTwo (rdata : List Byte) (hq : s.seqState = .idSeq1) :
      EventEffect s (.busDone true rdata) ((s.storeRead rdata).startBus (idSeq2Xfers s.params) .idSeq2)
  /-- The humidity command was written: the timer is armed (R153). -/
  | armed (rdata : List Byte) (hq : s.seqState = .humCmdSent) :
      EventEffect s (.busDone true rdata)
        (((s.storeRead rdata).emit [.timerStart Config.settleMs .ctxHum]).goto .humWaitSettle)
  /-- The settle delay ended: the humidity read (R154). -/
  | settled (p : Payload) (hq : s.seqState = .humWaitSettle) :
      EventEffect s (.timerExpired p) (s.startBus (humReadXfers s.params) .humReading)

/-! ## Host requests -/

/-- A sequencer request is refused, or accepted with its first stage. -/
theorem State.request_effect (s : State) (w : ReqWord) (op : OpCode) (xs : List Xfer) (q : SeqState)
    (hq : q.pendingXfers s.params = some xs) : EventEffect s (.hostReq w) (s.request op xs q) := by
  obtain ⟨-, h⟩ | ⟨-, -, h⟩ | ⟨hi, hd, h⟩ := s.request_cases op xs q <;> rw [h]
  · exact .completed w _
  · exact .completed w _
  · exact .accepted w xs q hi hd hq

/-- Every operation answers a next state, and its effect is one of a host request. -/
theorem exec_effect (i : Instr) (s : State) (w : ReqWord) :
    ∃ t, exec i s = .next t ∧ EventEffect s (.hostReq w) t := by
  cases i with
  | init =>
    refine ⟨_, rfl, ?_⟩
    split
    next hd => exact .firstInit w _ hd
    next => exact .completed w _
  | readUserReg => exact ⟨_, rfl, s.request_effect w _ _ _ rfl⟩
  | readDeviceId => exact ⟨_, rfl, s.request_effect w _ _ _ rfl⟩
  | readHumidity => exact ⟨_, rfl, s.request_effect w _ _ _ rfl⟩
  | readTemperature => exact ⟨_, rfl, s.request_effect w _ _ _ rfl⟩
  | crcUpdate state byte => exact ⟨_, rfl, .completed w _⟩
  | crcCompute16 value => exact ⟨_, rfl, .completed w _⟩

/-- Every host request answers a next state, and its effect is one of a host request. -/
theorem hostRequest_effect (w : ReqWord) (s : State) :
    ∃ t, hostRequest w s = .next t ∧ EventEffect s (.hostReq w) t := by
  cases hd : decode w with
  | ok i =>
    rw [hostRequest_of_ok w i s hd]
    exact exec_effect i s w
  | error e => exact ⟨_, hostRequest_of_error w e s hd, .completed w _⟩

/-! ## Bus completions -/

/-- The completion of the user-register transaction ends its request. -/
theorem userRegDone_effect (ok : Bool) (rdata : List Byte) (s : State) (hb : s.seqState.busOutstanding = true) :
    EventEffect s (.busDone ok rdata) (userRegDone ok rdata s) := by
  cases ok with
  | false => exact .failed rdata _ hb
  | true => exact .ended rdata _ hb

/-- The completion of identifier sequence 1 ends its request or sends sequence 2. -/
theorem idSeq1Done_effect (ok : Bool) (rdata : List Byte) (s : State) (hq : s.seqState = .idSeq1) :
    EventEffect s (.busDone ok rdata) (idSeq1Done ok rdata s) := by
  have hb : s.seqState.busOutstanding = true := by rw [hq]; rfl
  cases ok with
  | false => exact .failed rdata _ hb
  | true =>
    simp only [idSeq1Done, if_true]
    split
    · exact .sequenceTwo rdata hq
    · exact .ended rdata _ hb

/-- The completion of identifier sequence 2 ends its request. -/
theorem idSeq2Done_effect (ok : Bool) (rdata : List Byte) (s : State) (hb : s.seqState.busOutstanding = true) :
    EventEffect s (.busDone ok rdata) (idSeq2Done ok rdata s) := by
  cases ok with
  | false => exact .failed rdata _ hb
  | true =>
    simp only [idSeq2Done, if_true]
    split
    · exact .ended rdata _ hb
    · exact .ended rdata _ hb

/-- The completion of the humidity command ends its request or arms the timer. -/
theorem humCommandDone_effect (ok : Bool) (rdata : List Byte) (s : State) (hq : s.seqState = .humCmdSent) :
    EventEffect s (.busDone ok rdata) (humCommandDone ok rdata s) := by
  cases ok with
  | false => exact .failed rdata _ (by rw [hq]; rfl)
  | true => exact .armed rdata hq

/-- The completion of the humidity read ends its request. -/
theorem humReadDone_effect (ok : Bool) (rdata : List Byte) (s : State) (hb : s.seqState.busOutstanding = true) :
    EventEffect s (.busDone ok rdata) (humReadDone ok rdata s) := by
  cases ok with
  | false => exact .failed rdata _ hb
  | true =>
    simp only [humReadDone, if_true]
    split
    · exact .ended rdata _ hb
    · exact .ended rdata _ hb

/-- The completion of the temperature transaction ends its request. -/
theorem tempDone_effect (ok : Bool) (rdata : List Byte) (s : State) (hb : s.seqState.busOutstanding = true) :
    EventEffect s (.busDone ok rdata) (tempDone ok rdata s) := by
  cases ok with
  | false => exact .failed rdata _ hb
  | true => exact .ended rdata _ hb

/-- Where a transaction is outstanding, a bus completion has one of its effects. -/
theorem busEffect_effect (ok : Bool) (rdata : List Byte) (s : State) (hb : s.seqState.busOutstanding = true) :
    EventEffect s (.busDone ok rdata) (busEffect ok rdata s) := by
  unfold busEffect
  split
  next hq => simp [hq, SeqState.busOutstanding] at hb
  next hq => exact humCommandDone_effect ok rdata s hq
  next hq => simp [hq, SeqState.busOutstanding] at hb
  next => exact humReadDone_effect ok rdata s hb
  next => exact tempDone_effect ok rdata s hb
  next => exact userRegDone_effect ok rdata s hb
  next hq => exact idSeq1Done_effect ok rdata s hq
  next => exact idSeq2Done_effect ok rdata s hb

/-! ## Events and steps -/

/-- A consumed event that answers a next state has one of the effects. -/
theorem consume_effect {e : Event} {s t : State} (h : consume e s = .next t) : EventEffect s e t := by
  cases e with
  | hostReq w =>
    obtain ⟨t', ht, he⟩ := hostRequest_effect w s
    obtain rfl : t' = t := Host.Outcome.next.inj (ht.symm.trans h)
    exact he
  | busDone ok rdata =>
    obtain ⟨n, hn, -, rfl⟩ := (busCompletion_next_iff ok rdata s t).1 h
    exact busEffect_effect ok rdata s (SeqState.busOutstanding_of_readLen hn)
  | timerExpired p =>
    obtain ⟨hq, rfl⟩ := (timerExpiry_next_iff p s t).1 h
    exact .settled p hq

/-- A step that consumes an event and answers a next state has one of the effects. -/
theorem step_effect {s t : State} {e : Event} {rest : List Event} (hs : s.inputs = e :: rest)
    (h : step s = .next t) : EventEffect (s.takeInput rest) e t :=
  consume_effect ((step_cons s e rest hs).symm.trans h)

/-- A faulting event is unexpected: the hardware is left with ERR_SPURIOUS set and nothing else changed (R144). -/
theorem consume_fault_after {e : Event} {s : State} {f : Fault} (h : consume e s = .fault f) :
    f.after = s.setErrSpurious := by
  cases e with
  | hostReq w =>
    obtain ⟨t, ht, -⟩ := hostRequest_effect w s
    exact nomatch ht.symm.trans h
  | busDone ok rdata =>
    simp only [consume, busCompletion, State.unexpected] at h
    split at h
    · obtain rfl := Host.Outcome.fault.inj h
      rfl
    · split at h
      · obtain rfl := Host.Outcome.fault.inj h
        rfl
      · exact nomatch h
  | timerExpired p =>
    simp only [consume, timerExpiry, State.unexpected] at h
    split at h
    · exact nomatch h
    · obtain rfl := Host.Outcome.fault.inj h
      rfl

/-- A faulting step consumed an event and left the hardware with ERR_SPURIOUS set and nothing else changed (R144). -/
theorem step_fault_after {s : State} {f : Fault} (h : step s = .fault f) :
    ∃ e rest, s.inputs = e :: rest ∧ f.after = (s.takeInput rest).setErrSpurious := by
  cases hs : s.inputs with
  | nil => exact nomatch (step_nil s hs).symm.trans h
  | cons e rest => exact ⟨e, rest, rfl, consume_fault_after ((step_cons s e rest hs).symm.trans h)⟩

/-! ## Frames of the effects -/

namespace EventEffect

variable {s t : State} {e : Event}

/-- No effect writes ERR_SPURIOUS, a parameter or the events to come. -/
theorem frame (h : EventEffect s e t) :
    t.errSpurious = s.errSpurious ∧ t.params = s.params ∧ t.inputs = s.inputs := by
  cases h <;> exact ⟨rfl, rfl, rfl⟩

/-- INIT_DONE is written by a host request alone. -/
theorem initDone_eq (h : EventEffect s e t) (he : e.isHostReq = false) : t.initDone = s.initDone := by
  cases h with
  | completed | firstInit | accepted => cases he
  | failed | ended | sequenceTwo | armed | settled => rfl

/-- A successful bus completion stores its bytes. -/
theorem buf_of_busDone {rdata : List Byte} (h : EventEffect s (.busDone true rdata) t) :
    t.buf = fillBuf s.buf rdata := by
  cases h <;> rfl

/-- Nothing but a successful bus completion writes BUF. -/
theorem buf_eq (h : EventEffect s e t) (he : ∀ rdata, e ≠ .busDone true rdata) : t.buf = s.buf := by
  cases h with
  | completed | firstInit | accepted | failed | settled => rfl
  | ended rdata | sequenceTwo rdata | armed rdata => exact absurd rfl (he rdata)

end EventEffect

end Sys2Proof.Machine
end

section
/-! The obligations of the spec's chapter on the state, but for its hidden part. -/

namespace Sys2Proof.Machine

open Sys2Proof

/-! ## Codes (R21, R77) -/

/-- The code of a sequencer state names it. -/
@[simp] theorem SeqState.ofCode_code (q : SeqState) : SeqState.ofCode q.code = q := by cases q <;> rfl

/-- Every 3-bit code is that of the sequencer state it names. -/
@[simp] theorem SeqState.code_ofCode : ∀ c : BitVec 3, (SeqState.ofCode c).code = c := by decide

/-- No status has a reserved code. -/
theorem Status.code_ne_reserved (st : Status) : st.code ≠ 6 ∧ st.code ≠ 7 := by cases st <;> decide

/-- Settles O5: the two code maps are inverse to each other, and the numbers are the spec's. -/
theorem stateAndStatusCodes : Obligations.StateAndStatusCodes :=
  ⟨SeqState.ofCode_code, SeqState.code_ofCode, rfl, rfl, rfl, rfl, rfl, rfl, rfl, rfl, rfl, rfl, rfl, rfl, rfl, rfl,
    Status.code_ne_reserved⟩

/-! ## BUF (R25) -/

/-- Settles O27: the frame of the effects, and the bytes of a buffer after a read. -/
theorem bufferWrites : Obligations.BufferWrites := by
  unfold Obligations.BufferWrites
  intro s t e rest hs h
  have eff := step_effect hs h
  obtain ⟨herr, hparams, hinputs⟩ := eff.frame
  refine ⟨?_, eff.buf_eq, eff.initDone_eq, herr, hparams, hinputs⟩
  rintro rdata i hi rfl
  simp only [eff.buf_of_busDone, fillBuf_getElem, State.takeInput_buf]
  split
  next hl => exact List.getD_eq_getElem rdata _ hl
  next hl => exact List.getD_eq_default rdata _ (Nat.le_of_not_lt hl)

/-! ## ERR_SPURIOUS (R24) -/

/-- A step that does not fault leaves ERR_SPURIOUS alone. -/
theorem step_next_errSpurious {s t : State} (h : step s = .next t) : t.errSpurious = s.errSpurious := by
  cases hs : s.inputs with
  | nil =>
    obtain rfl : s = t := Host.Outcome.next.inj ((step_nil s hs).symm.trans h)
    rfl
  | cons e rest => exact (step_effect hs h).frame.1

/-- A fault sets ERR_SPURIOUS. -/
theorem step_fault_errSpurious {s : State} {f : Fault} (h : step s = .fault f) : f.after.errSpurious = true := by
  obtain ⟨e, rest, -, hf⟩ := step_fault_after h
  rw [hf, State.setErrSpurious_errSpurious]

/-- Settles O32: by the outcome of the step. -/
theorem errSpuriousSticky : Obligations.ErrSpuriousSticky := by
  unfold Obligations.ErrSpuriousSticky
  refine fun s => ⟨fun hset => ?_, fun f => step_fault_errSpurious, fun t => step_next_errSpurious⟩
  unfold hardwareNext
  split
  next t ht => exact (step_next_errSpurious ht).trans hset
  next f hf => exact step_fault_errSpurious hf
  next => exact hset

/-! ## Accounts of what is outstanding (R22) -/

@[simp] theorem oneIf_true : oneIf true = 1 := rfl
@[simp] theorem oneIf_false : oneIf false = 0 := rfl

/-- Nothing is outstanding in IDLE. -/
@[simp] theorem SeqState.idle_busOutstanding : SeqState.idle.busOutstanding = false := rfl
@[simp] theorem SeqState.idle_timerArmed : SeqState.idle.timerArmed = false := rfl

namespace EventEffect

variable {s t : State} {e : Event}

/-- Bus requests emitted less bus completions consumed change as the outstanding bit of SEQ_STATE. -/
theorem busReq_account (h : EventEffect s e t) :
    t.outputs.countP Output.isBusReq + oneIf s.seqState.busOutstanding =
      s.outputs.countP Output.isBusReq + oneIf t.seqState.busOutstanding + oneIf e.isBusDone := by
  cases h with
  | completed | firstInit => simp [Output.isBusReq, Event.isBusDone]
  | accepted w xs q hi hd hq =>
    simp [hi, SeqState.busOutstanding_of_pendingXfers hq, Output.isBusReq, Event.isBusDone]
  | failed rdata c hb | ended rdata c hb => simp [hb, Output.isBusReq, Event.isBusDone]
  | sequenceTwo rdata hq | armed rdata hq | settled rdata hq =>
    simp [hq, SeqState.busOutstanding, Output.isBusReq, Event.isBusDone]

/-- Timer starts emitted less expiries consumed change as the armed bit of SEQ_STATE. -/
theorem timerStart_account (h : EventEffect s e t) :
    t.outputs.countP Output.isTimerStart + oneIf s.seqState.timerArmed =
      s.outputs.countP Output.isTimerStart + oneIf t.seqState.timerArmed + oneIf e.isTimerExpired := by
  cases h with
  | completed | firstInit => simp [Output.isTimerStart, Event.isTimerExpired]
  | accepted w xs q hi hd hq =>
    have ht := SeqState.timerArmed_eq_false (SeqState.busOutstanding_of_pendingXfers hq)
    simp [hi, ht, Output.isTimerStart, Event.isTimerExpired]
  | failed rdata c hb | ended rdata c hb =>
    simp [SeqState.timerArmed_eq_false hb, Output.isTimerStart, Event.isTimerExpired]
  | sequenceTwo rdata hq | armed rdata hq | settled rdata hq =>
    simp [hq, SeqState.timerArmed, Output.isTimerStart, Event.isTimerExpired, oneIf]

/-- TimerCreate is emitted exactly when INIT_DONE rises. -/
theorem timerCreate_account (h : EventEffect s e t) :
    t.outputs.count .timerCreate + oneIf s.initDone = s.outputs.count .timerCreate + oneIf t.initDone := by
  cases h with
  | firstInit w c hd => simp [hd]
  | completed | accepted | failed | ended | sequenceTwo | armed | settled => simp

end EventEffect

/-- Settles O40: the two accounts of the effects, over the outputs of the state the event was taken from. -/
theorem outstandingAccounts : Obligations.OutstandingAccounts := by
  unfold Obligations.OutstandingAccounts
  refine ⟨fun s t e rest hs h => ?_, fun q ⟨hb, ht⟩ => ?_⟩
  · have eff := step_effect hs h
    exact ⟨eff.busReq_account, eff.timerStart_account⟩
  · rw [SeqState.timerArmed_eq_false hb] at ht
    exact Bool.false_ne_true ht

/-- Settles O42: TimerCreate and INIT_DONE are counted together. -/
theorem timerCreatedOnceKept : Obligations.TimerCreatedOnceKept := by
  unfold Obligations.TimerCreatedOnceKept State.TimerCreatedOnce
  intro s t hinv h
  cases hs : s.inputs with
  | nil =>
    obtain rfl : s = t := Host.Outcome.next.inj ((step_nil s hs).symm.trans h)
    exact hinv
  | cons e rest =>
    have hacc := (step_effect hs h).timerCreate_account
    simp only [State.takeInput_outputs, State.takeInput_initDone] at hacc
    omega

end Sys2Proof.Machine
end

section
/-! The obligation on the hidden part of the state: BUF's old contents and ERR_SPURIOUS (R24, R25). Every operation
keeps `State.AgreeButHidden`, because a completion reads no byte of BUF that it did not store. -/

namespace Sys2Proof.Machine

open Sys2Proof

/-! ## What a read leaves of the old buffer (R25) -/

/-- A byte below the length read is the same whatever BUF held. -/
theorem fillBuf_getElem_congr (buf buf' : Vector Byte 8) (rdata : List Byte) {i : Nat} (h : i < 8)
    (hl : i < rdata.length) : (fillBuf buf rdata)[i] = (fillBuf buf' rdata)[i] := by
  simp only [fillBuf_getElem, List.getD_eq_getElem rdata _ hl]

/-- After an eight-byte read BUF is the same whatever it held. -/
theorem fillBuf_congr (buf buf' : Vector Byte 8) (rdata : List Byte) (hl : rdata.length = 8) :
    fillBuf buf rdata = fillBuf buf' rdata :=
  Vector.ext fun _ h => fillBuf_getElem_congr buf buf' rdata h (hl ▸ h)

/-- After a six-byte read BUF[0..5] are the same whatever BUF held. -/
theorem firstSix_fillBuf_congr (buf buf' : Vector Byte 8) (rdata : List Byte) (hl : rdata.length = 6) :
    firstSix (fillBuf buf rdata) = firstSix (fillBuf buf' rdata) := by
  simp (disch := omega) only [firstSix, fillBuf_getElem_congr buf buf' rdata]

/-! ## The operations keep the agreement

Each takes agreeing states to agreeing states; what a completion or a transaction reads of the state is shown equal. -/

namespace State.AgreeButHidden

variable {s s' : State} (h : s.AgreeButHidden s')
include h

theorem seqState_eq : s.seqState = s'.seqState := h.1
theorem initDone_eq : s.initDone = s'.initDone := h.2.1
theorem params_eq : s.params = s'.params := h.2.2.1
theorem inputs_eq : s.inputs = s'.inputs := h.2.2.2.1
theorem outputs_eq : s.outputs = s'.outputs := h.2.2.2.2

theorem emit (outs : List Output) : (s.emit outs).AgreeButHidden (s'.emit outs) :=
  ⟨h.seqState_eq, h.initDone_eq, h.params_eq, h.inputs_eq, congrArg (· ++ outs) h.outputs_eq⟩

theorem goto (q : SeqState) : (s.goto q).AgreeButHidden (s'.goto q) :=
  ⟨rfl, h.initDone_eq, h.params_eq, h.inputs_eq, h.outputs_eq⟩

theorem setInitDone : s.setInitDone.AgreeButHidden s'.setInitDone :=
  ⟨h.seqState_eq, rfl, h.params_eq, h.inputs_eq, h.outputs_eq⟩

theorem storeRead (rdata : List Byte) : (s.storeRead rdata).AgreeButHidden (s'.storeRead rdata) := h

theorem takeInput (rest : List Event) : (s.takeInput rest).AgreeButHidden (s'.takeInput rest) :=
  ⟨h.seqState_eq, h.initDone_eq, h.params_eq, rfl, h.outputs_eq⟩

theorem complete (c : Completion) : (s.complete c).AgreeButHidden (s'.complete c) := h.emit _

theorem finish {c c' : Completion} (hc : c = c') : (s.finish c).AgreeButHidden (s'.finish c') :=
  hc ▸ (h.complete c).goto _

theorem failRequest (op : OpCode) (st : Status) : (s.failRequest op st).AgreeButHidden (s'.failRequest op st) :=
  h.finish rfl

theorem startBus {xs xs' : List Xfer} (hx : xs = xs') (q : SeqState) :
    (s.startBus xs q).AgreeButHidden (s'.startBus xs' q) :=
  hx ▸ (h.emit _).goto q

omit h in
/-- Two conditionals agree when their conditions do and each branch does. -/
theorem ite {b b' : Bool} {x x' y y' : State} (hb : b = b') (hx : b = true → x.AgreeButHidden x')
    (hy : y.AgreeButHidden y') :
    State.AgreeButHidden (if b then x else y) (if b' then x' else y') := by
  subst hb
  cases b with
  | false => exact hy
  | true => exact hx rfl

/-- The checks on a sequencer request read no hidden field. -/
theorem request (op : OpCode) {xs xs' : List Xfer} (hx : xs = xs') (q : SeqState) :
    (s.request op xs q).AgreeButHidden (s'.request op xs' q) := by
  unfold State.request
  rw [← h.seqState_eq, ← h.initDone_eq]
  split
  · exact h.complete _
  · split
    · exact h.complete _
    · exact h.startBus hx q

theorem humCommandDone (ok : Bool) (rdata : List Byte) :
    (Machine.humCommandDone ok rdata s).AgreeButHidden (Machine.humCommandDone ok rdata s') :=
  ite rfl (fun _ => ((h.storeRead rdata).emit _).goto _) (h.failRequest _ _)

theorem settleDone : (Machine.settleDone s).AgreeButHidden (Machine.settleDone s') :=
  h.startBus (congrArg humReadXfers h.params_eq) _

/-- The humidity completion reads the three bytes it stored. -/
theorem humReadDone (ok : Bool) (rdata : List Byte) (hl : ok = true → rdata.length = 3) :
    (Machine.humReadDone ok rdata s).AgreeButHidden (Machine.humReadDone ok rdata s') := by
  refine ite rfl (fun hok => ?_) (h.failRequest _ _)
  have hlen : rdata.length = 3 := hl hok
  simp (disch := omega) only [State.storeRead_buf, State.storeRead_params,
    fillBuf_getElem_congr s.buf s'.buf rdata, h.params_eq]
  exact ite rfl (fun _ => (h.storeRead rdata).finish rfl) ((h.storeRead rdata).failRequest _ _)

/-- The temperature completion reads the two bytes it stored. -/
theorem tempDone (ok : Bool) (rdata : List Byte) (hl : ok = true → rdata.length = 2) :
    (Machine.tempDone ok rdata s).AgreeButHidden (Machine.tempDone ok rdata s') := by
  refine ite rfl (fun hok => (h.storeRead rdata).finish ?_) (h.failRequest _ _)
  have hlen : rdata.length = 2 := hl hok
  simp (disch := omega) only [State.storeRead_buf, fillBuf_getElem_congr s.buf s'.buf rdata]

/-- The user-register completion reads the byte it stored. -/
theorem userRegDone (ok : Bool) (rdata : List Byte) (hl : ok = true → rdata.length = 1) :
    (Machine.userRegDone ok rdata s).AgreeButHidden (Machine.userRegDone ok rdata s') := by
  refine ite rfl (fun hok => (h.storeRead rdata).finish (congrArg _ ?_)) (h.failRequest _ _)
  exact fillBuf_getElem_congr s.buf s'.buf rdata (by decide) (by rw [hl hok]; decide)

/-- The completion of identifier sequence 1 reads the eight bytes it stored. -/
theorem idSeq1Done (ok : Bool) (rdata : List Byte) (hl : ok = true → rdata.length = 8) :
    (Machine.idSeq1Done ok rdata s).AgreeButHidden (Machine.idSeq1Done ok rdata s') := by
  refine ite rfl (fun hok => ite (congrArg checkId1 ?_) (fun _ => ?_) ?_) (h.failRequest _ _)
  · exact fillBuf_congr s.buf s'.buf rdata (hl hok)
  · exact (h.storeRead rdata).startBus (congrArg idSeq2Xfers h.params_eq) _
  · exact (h.storeRead rdata).failRequest _ _

/-- The completion of identifier sequence 2 reads the six bytes it stored. -/
theorem idSeq2Done (ok : Bool) (rdata : List Byte) (hl : ok = true → rdata.length = 6) :
    (Machine.idSeq2Done ok rdata s).AgreeButHidden (Machine.idSeq2Done ok rdata s') := by
  refine ite rfl (fun hok => ?_) (h.failRequest _ _)
  simp only [State.storeRead_buf, State.storeRead_params, h.params_eq,
    firstSix_fillBuf_congr s.buf s'.buf rdata (hl hok)]
  exact ite rfl (fun _ => (h.storeRead rdata).finish rfl) ((h.storeRead rdata).failRequest _ _)

/-- A bus completion of the expected length reads no byte that it did not store. -/
theorem busEffect (ok : Bool) (rdata : List Byte) {n : Nat} (hn : s.seqState.readLen = some n)
    (hl : ok = true → rdata.length = n) :
    (Machine.busEffect ok rdata s).AgreeButHidden (Machine.busEffect ok rdata s') := by
  unfold Machine.busEffect
  rw [← h.seqState_eq]
  cases hq : s.seqState <;> rw [hq] at hn <;> cases hn
  case humCmdSent => exact h.humCommandDone ok rdata
  case humReading => exact h.humReadDone ok rdata hl
  case tempXfer => exact h.tempDone ok rdata hl
  case uregXfer => exact h.userRegDone ok rdata hl
  case idSeq1 => exact h.idSeq1Done ok rdata hl
  case idSeq2 => exact h.idSeq2Done ok rdata hl

end State.AgreeButHidden

/-! ## Results, steps and runs -/

/-- Where `r` answers a next state, so does `r'`, and the two states differ at most in the hidden part. -/
def NextAgree (r r' : Result) : Prop := ∀ t, r = .next t → ∃ t', r' = .next t' ∧ t.AgreeButHidden t'

/-- Agreeing states are agreeing answers. -/
theorem State.AgreeButHidden.next {t t' : State} (h : t.AgreeButHidden t') : NextAgree (.next t) (.next t') := by
  rintro _ ⟨⟩
  exact ⟨t', rfl, h⟩

/-- An operation reads no hidden field. -/
theorem exec_agree (i : Instr) {s s' : State} (h : s.AgreeButHidden s') : NextAgree (exec i s) (exec i s') := by
  cases i with
  | init =>
    refine State.AgreeButHidden.next (State.AgreeButHidden.complete ?_ _)
    rw [← h.initDone_eq]
    split
    · exact (h.emit _).setInitDone
    · exact h
  | readUserReg => exact (h.request _ (congrArg userRegXfers h.params_eq) _).next
  | readDeviceId => exact (h.request _ (congrArg idSeq1Xfers h.params_eq) _).next
  | readHumidity => exact (h.request _ (congrArg humCommandXfers h.params_eq) _).next
  | readTemperature => exact (h.request _ (congrArg tempXfers h.params_eq) _).next
  | crcUpdate state byte => exact (h.complete _).next
  | crcCompute16 value => exact (h.complete _).next

/-- Whether an event answers a next state, and which, depends on no hidden field. -/
theorem consume_agree (e : Event) {s s' : State} (h : s.AgreeButHidden s') :
    NextAgree (consume e s) (consume e s') := by
  cases e with
  | hostReq w =>
    cases hd : decode w with
    | ok i =>
      rw [consume, consume, hostRequest_of_ok w i s hd, hostRequest_of_ok w i s' hd]
      exact exec_agree i h
    | error e =>
      rw [consume, consume, hostRequest_of_error w e s hd, hostRequest_of_error w e s' hd]
      exact (h.complete _).next
  | busDone ok rdata =>
    intro t ht
    obtain ⟨n, hn, hl, rfl⟩ := (busCompletion_next_iff ok rdata s t).1 ht
    exact ⟨_, (busCompletion_next_iff ok rdata s' _).2 ⟨n, h.seqState_eq ▸ hn, hl, rfl⟩, h.busEffect ok rdata hn hl⟩
  | timerExpired p =>
    intro t ht
    obtain ⟨hq, rfl⟩ := (timerExpiry_next_iff p s t).1 ht
    exact ⟨_, (timerExpiry_next_iff p s' _).2 ⟨h.seqState_eq ▸ hq, rfl⟩, h.settleDone⟩

/-- A step depends on no hidden field. -/
theorem step_agree {s s' : State} (h : s.AgreeButHidden s') : NextAgree (step s) (step s') := by
  cases hs : s.inputs with
  | nil =>
    rw [step_nil s hs, step_nil s' (h.inputs_eq ▸ hs)]
    exact h.next
  | cons e rest =>
    rw [step_cons s e rest hs, step_cons s' e rest (h.inputs_eq ▸ hs)]
    exact consume_agree e (h.takeInput rest)

/-- A run that answers a next state begins with a step that does. -/
theorem runSteps_succ_next {n : Nat} {s t : State} (h : runSteps (n + 1) s = .next t) :
    ∃ u, step s = .next u ∧ runSteps n u = .next t := by
  rw [runSteps] at h
  split at h
  next u hu => exact ⟨u, hu, h⟩
  next => exact nomatch h
  next => exact nomatch h

/-- Settles O47, by induction on the number of steps: each step keeps the agreement. -/
theorem hiddenStateUnobservable : Obligations.HiddenStateUnobservable := by
  unfold Obligations.HiddenStateUnobservable
  intro n
  induction n with
  | zero => exact fun s s' t h => h.next t
  | succ n ih =>
    intro s s' t h hrun
    obtain ⟨u, hu, hrun'⟩ := runSteps_succ_next hrun
    obtain ⟨u', hu', hagree⟩ := step_agree h u hu
    obtain ⟨t', ht', ht⟩ := ih u u' t hagree hrun'
    exact ⟨t', (runSteps_succ n s' u' hu').trans ht', ht⟩

end Sys2Proof.Machine
end

section
/-! The obligations of the spec's memory chapter: the parameters and the placing of a request (R51, R61, R73). -/

namespace Sys2Proof.Machine

open Sys2Proof

/-! ## The parameters (R51, R232) -/

/-- A step that does not fault writes no parameter. -/
theorem step_next_params {s t : State} (h : step s = .next t) : t.params = s.params := by
  cases hs : s.inputs with
  | nil =>
    obtain rfl : s = t := Host.Outcome.next.inj ((step_nil s hs).symm.trans h)
    rfl
  | cons e rest =>
    obtain ⟨-, hparams, -⟩ := (step_effect hs h).frame
    exact hparams

/-- The state a fault leaves the hardware in has the parameters of the state before. -/
theorem step_fault_params {s : State} {f : Fault} (h : step s = .fault f) : f.after.params = s.params := by
  obtain ⟨e, rest, -, hf⟩ := step_fault_after h
  rw [hf, State.setErrSpurious_params, State.takeInput_params]

/-- Settles O28: by the outcome of the step. -/
theorem parametersConstant : Obligations.ParametersConstant := by
  unfold Obligations.ParametersConstant
  intro s
  unfold hardwareNext
  split
  next t ht => exact step_next_params ht
  next f hf => exact step_fault_params hf
  next => rfl

/-! ## Placing a request (R61, R73) -/

/-- A table word that reads as an operation is a request word that decodes to it. -/
theorem decode_of_decodeTableWord {nbits w : Nat} {i : Instr} (h : decodeTableWord nbits w = some i) :
    decode (BitVec.ofNat 24 (w % 2 ^ nbits)) = .ok i := by
  simp only [decodeTableWord] at h
  split at h
  · split at h
    next j hj => exact hj.trans (congrArg Except.ok (Option.some.inj h))
    next => exact nomatch h
  · exact nomatch h

/-- The step after a request is placed serves that request on the state it was placed in. -/
theorem step_placeRequest (s : State) (w : ReqWord) : step (s.placeRequest w) = hostRequest w s :=
  step_cons (s.placeRequest w) (.hostReq w) s.inputs (State.placeRequest_inputs s w)

/-- Settles O7: the placed word decodes to the operation, and the step serves it. -/
theorem placedWordIsRunNext : Obligations.PlacedWordIsRunNext := by
  unfold Obligations.PlacedWordIsRunNext State.withFetchWord
  intro s w i h
  rw [step_placeRequest]
  exact hostRequest_of_ok _ i s (decode_of_decodeTableWord h)

end Sys2Proof.Machine
end

section
/-! The obligations on the request words (R70 to R74): the encoder and the decoder are inverse to each other, and the
decoder rejects the words of R74's list. Each fact is proved of the fields and carried over to the words. -/

namespace Sys2Proof

open Sys2Proof.Machine

/-! ## Decoding fields (R73) -/

/-- An operation without operand is decoded where OPERAND is 0, and nowhere else. -/
theorem withoutOperand_ok_iff (operand : BitVec 16) (i j : Instr) :
    withoutOperand operand i = .ok j ↔ operand = 0 ∧ i = j := by
  unfold withoutOperand
  split <;> simp_all

/-- The fields of an operation decode to it. -/
theorem decodeFields_encodeFields (i : Instr) : decodeFields (encodeFields i) = .ok i := by
  cases i with
  | init | readUserReg | readDeviceId | readHumidity | readTemperature | crcCompute16 => rfl
  | crcUpdate state byte =>
    have hstate : (state ++ byte).extractLsb' 8 8 = state := extract_high state byte
    have hbyte : (state ++ byte).extractLsb' 0 8 = byte := extract_low state byte
    simp [decodeFields, encodeFields, opcode, operandField, hstate, hbyte]

/-- Fields that decode are those of the operation they decode to. -/
theorem encodeFields_of_decodeFields {f : ReqFields} {i : Instr} (h : decodeFields f = .ok i) :
    encodeFields i = f := by
  obtain ⟨op, rsv, operand⟩ := f
  unfold decodeFields at h
  split at h
  · exact nomatch h
  next hrsv =>
    obtain rfl : rsv = 0 := not_not.1 hrsv
    split at h
    next hop =>
      obtain rfl : op = opCrcUpdate := hop
      obtain rfl := Except.ok.inj h
      exact congrArg (ReqFields.mk opCrcUpdate 0) (join_bytes operand)
    split at h
    next hop =>
      obtain rfl : op = opCrcCompute16 := hop
      obtain rfl := Except.ok.inj h
      rfl
    iterate 5
      split at h
      next hop =>
        obtain rfl : op = _ := hop
        obtain ⟨rfl, rfl⟩ := (withoutOperand_ok_iff operand _ i).1 h
        rfl
    exact nomatch h

/-- The encoder gives every operation well-formed fields. -/
theorem encodeFields_wf (i : Instr) : (encodeFields i).wf = true := by
  cases i with
  | init => exact Laws.LegalFields.init
  | readUserReg => exact Laws.LegalFields.readUserReg
  | readDeviceId => exact Laws.LegalFields.readDeviceId
  | readHumidity => exact Laws.LegalFields.readHumidity
  | readTemperature => exact Laws.LegalFields.readTemperature
  | crcUpdate state byte => exact Laws.LegalFields.crcUpdate state byte
  | crcCompute16 value => exact Laws.LegalFields.crcCompute16 value

/-- Well-formed fields are the fields of an operation. -/
theorem exists_encodeFields_of_wf {f : ReqFields} (h : f.wf = true) : ∃ i, encodeFields i = f := by
  obtain ⟨op, rsv, operand⟩ := f
  simp only [ReqFields.wf, ReqFields.opAssigned, ReqFields.rsvZero, ReqFields.operandAllowed,
    ReqFields.takesOperand, Bool.and_eq_true, Bool.or_eq_true, beq_iff_eq] at h
  obtain ⟨⟨hop, rfl⟩, hoperand⟩ := h
  rcases hop with ((((rfl | rfl) | rfl) | rfl) | rfl) | rfl | rfl
  case inr.inl => exact ⟨_, encodeFields_of_decodeFields (f := ⟨0x8, 0, operand⟩) rfl⟩
  case inr.inr => exact ⟨.crcCompute16 operand, rfl⟩
  all_goals obtain rfl : operand = 0 := by simpa using hoperand
  · exact ⟨.init, rfl⟩
  · exact ⟨.readUserReg, rfl⟩
  · exact ⟨.readDeviceId, rfl⟩
  · exact ⟨.readHumidity, rfl⟩
  · exact ⟨.readTemperature, rfl⟩

/-- Fields are rejected exactly where they are not well formed. -/
theorem decodeFields_error_iff (f : ReqFields) : (∃ e, decodeFields f = .error e) ↔ f.wf = false := by
  constructor
  · rintro ⟨e, he⟩
    by_contra hwf
    obtain ⟨i, rfl⟩ := exists_encodeFields_of_wf (Bool.not_eq_false _ ▸ hwf)
    exact nomatch he.symm.trans (decodeFields_encodeFields i)
  · intro hwf
    cases hd : decodeFields f with
    | error e => exact ⟨e, rfl⟩
    | ok i =>
      rw [← encodeFields_of_decodeFields hd, encodeFields_wf] at hwf
      exact nomatch hwf

/-! ## Decoding words -/

/-- Decoding the word of an operation gives it back. -/
@[simp] theorem decode_encode (i : Instr) : decode (encode i) = .ok i := by
  rw [decode, encode, fieldsOfWord_wordOfFields, decodeFields_encodeFields]

/-- A word that decodes is the word of its operation. -/
theorem encode_of_decode {w : ReqWord} {i : Instr} (h : decode w = .ok i) : encode i = w := by
  rw [encode, encodeFields_of_decodeFields h, wordOfFields_fieldsOfWord]

/-- A code is unassigned exactly where it is one of the reserved codes of R74. -/
theorem opAssigned_eq_false_iff (f : ReqFields) :
    f.opAssigned = false ↔ f.op ∈ ([0x5, 0x6, 0x7, 0xA, 0xB, 0xC, 0xD, 0xE, 0xF] : List OpCode) := by
  have key : ∀ op : OpCode, (ReqFields.mk op 0 0).opAssigned = false ↔
      op ∈ ([0x5, 0x6, 0x7, 0xA, 0xB, 0xC, 0xD, 0xE, 0xF] : List OpCode) := by decide
  exact key f.op

/-- An assigned code takes no operand exactly where it is one of 0x0 to 0x4. -/
theorem takesOperand_eq_false_iff (f : ReqFields) (h : f.opAssigned = true) :
    f.takesOperand = false ↔ f.op ∈ ([0x0, 0x1, 0x2, 0x3, 0x4] : List OpCode) := by
  have key : ∀ op : OpCode, (ReqFields.mk op 0 0).opAssigned = true →
      ((ReqFields.mk op 0 0).takesOperand = false ↔ op ∈ ([0x0, 0x1, 0x2, 0x3, 0x4] : List OpCode)) := by decide
  exact key f.op h

/-- R74's items are the ways in which the fields of a word can be ill formed. -/
theorem illegalWord_iff_wf (w : ReqWord) : IllegalWord w ↔ (fieldsOfWord w).wf = false := by
  have hop := opAssigned_eq_false_iff (fieldsOfWord w)
  have htakes := takesOperand_eq_false_iff (fieldsOfWord w)
  change (fieldsOfWord w).op ∈ _ ∨ (fieldsOfWord w).rsv ≠ 0 ∨
    (fieldsOfWord w).op ∈ _ ∧ (fieldsOfWord w).operand ≠ 0 ↔ _
  rw [← hop]
  cases hassigned : (fieldsOfWord w).opAssigned with
  | false => simp [ReqFields.wf, hassigned]
  | true =>
    rw [← htakes hassigned]
    simp [ReqFields.wf, ReqFields.rsvZero, ReqFields.operandAllowed, hassigned, ← imp_iff_not_or]

/-- The decoder rejects exactly the words of R74's list. -/
theorem decode_error_iff (w : ReqWord) : (∃ e, decode w = .error e) ↔ IllegalWord w :=
  (decodeFields_error_iff (fieldsOfWord w)).trans (illegalWord_iff_wf w).symm

/-! ## The obligations -/

/-- Settles O1: each word is decoded. -/
theorem specWordsDecode : Obligations.SpecWordsDecode := by
  unfold Obligations.SpecWordsDecode
  decide

/-- Settles O2: the round trip on the fields, under the word of the fields. -/
theorem decodeEncodeRoundTrip : Obligations.DecodeEncodeRoundTrip := decode_encode

/-- Settles O3: the converse on the fields, under the fields of the word. -/
theorem decodedWordIsEncoding : Obligations.DecodedWordIsEncoding := fun _ _ => encode_of_decode

/-- Settles O4: the decoder rejects the ill-formed fields, and R74 lists them. -/
theorem illegalWordsAreThoseListed : Obligations.IllegalWordsAreThoseListed := decode_error_iff

/-- Settles O9: the decoder rejects the word, and a rejected request is completed ILLEGAL. -/
theorem illegalWordIsCompleted : Obligations.IllegalWordIsCompleted := by
  unfold Obligations.IllegalWordIsCompleted
  intro s w rest hs hw
  obtain ⟨e, he⟩ := (decode_error_iff w).2 hw
  rw [step_cons s _ rest hs, consume, hostRequest_of_error w e _ he]
  rfl

end Sys2Proof
end

section
/-! The obligations on the bytes and the records the block puts out (R76, R79, R81). `Emittable` lists the outputs a
step can emit, with what their transactions and records carry; each obligation is a case analysis over it. -/

namespace Sys2Proof.Machine

open Sys2Proof

/-! ## The outputs a step can emit -/

/-- The completion records of the block (R76). -/
inductive ReportedCpl (p : Params) : Completion → Prop where
  /-- INIT, which has no result. -/
  | init : ReportedCpl p (byteCpl opInit 0)
  /-- A success whose result is a byte. -/
  | byteResult (op : OpCode) (data : Byte)
      (hop : op ∈ [opReadUserReg, opReadDeviceId, opCrcUpdate, opCrcCompute16]) : ReportedCpl p (byteCpl op data)
  /-- A humidity success (R155). -/
  | humidity (raw : RawCode) :
      ReportedCpl p (measurementCpl opReadHumidity (reportedRaw p.humRawReport raw) (convH (maskH raw)))
  /-- A temperature success (R157). -/
  | temperature (raw : RawCode) : ReportedCpl p (measurementCpl opReadTemperature raw (convT raw))
  /-- A failed or refused request (R141, R142, R203). -/
  | failed (op : OpCode) (st : Status) (hok : st ≠ .ok) (hill : st ≠ .illegal) : ReportedCpl p (failedCpl op st)
  /-- An illegal word (R202). -/
  | illegal (w : ReqWord) : ReportedCpl p (illegalCpl w)

/-- The outputs of the block: a transaction that some sequencer state waits for, the timer's requests, a record. -/
inductive Emittable (p : Params) : Output → Prop where
  | busReq (q : SeqState) {xs : List Xfer} (hq : q.pendingXfers p = some xs) : Emittable p (.busReq xs)
  | timerCreate : Emittable p .timerCreate
  | timerStart (ms : Nat) (payload : Payload) : Emittable p (.timerStart ms payload)
  | cpl {c : Completion} (hc : ReportedCpl p c) : Emittable p (.cpl c)

/-- `t` holds the outputs of `s`, then outputs of the block alone. -/
def Emits (s t : State) : Prop := ∃ new, t.outputs = s.outputs ++ new ∧ ∀ o ∈ new, Emittable s.params o

variable {s t : State}

/-- What a step appended, if it emits outputs of the block alone, are such outputs. -/
theorem Emits.emittable (h : Emits s t) {new : List Output} (ht : t.outputs = s.outputs ++ new) {o : Output}
    (ho : o ∈ new) : Emittable s.params o := by
  obtain ⟨new', ht', hall⟩ := h
  obtain rfl : new' = new := List.append_cancel_left (ht'.symm.trans ht)
  exact hall o ho

/-- Nothing emitted. -/
theorem Emits.none (ht : t.outputs = s.outputs) : Emits s t := ⟨[], by simp [ht], by simp⟩

/-- One output emitted. -/
theorem Emits.one {o : Output} (ho : Emittable s.params o) (ht : t.outputs = s.outputs ++ [o]) : Emits s t :=
  ⟨[o], ht, by simpa using ho⟩

/-- One record emitted. -/
theorem Emits.record {c : Completion} (hc : ReportedCpl s.params c) (ht : t.outputs = s.outputs ++ [.cpl c]) :
    Emits s t := .one (.cpl hc) ht

/-- A failed request emits its record. -/
theorem Emits.failRequest (s u : State) (op : OpCode) (st : Status) (hu : u.outputs = s.outputs) (hok : st ≠ .ok)
    (hill : st ≠ .illegal) : Emits s (u.failRequest op st) :=
  .record (.failed op st hok hill) (by simp [hu])

/-! ## Host requests -/

/-- A sequencer request emits the record of a refusal, or its first transaction. -/
theorem State.request_emits (s : State) (op : OpCode) {xs : List Xfer} {q : SeqState}
    (hq : q.pendingXfers s.params = some xs) : Emits s (s.request op xs q) := by
  obtain ⟨-, h⟩ | ⟨-, -, h⟩ | ⟨-, -, h⟩ := s.request_cases op xs q <;> rw [h]
  · exact .record (.failed op .busy nofun nofun) rfl
  · exact .record (.failed op .notInit nofun nofun) rfl
  · exact .one (.busReq q hq) rfl

/-- An operation emits outputs of the block alone. -/
theorem exec_emits (i : Instr) (h : exec i s = .next t) : Emits s t := by
  cases i <;> obtain rfl := Host.Outcome.next.inj h
  case init =>
    split
    · exact ⟨[.timerCreate, .cpl (byteCpl opInit 0)], by simp, by simpa using ⟨.timerCreate, .cpl .init⟩⟩
    · exact .record .init rfl
  case readUserReg => exact s.request_emits _ rfl
  case readDeviceId => exact s.request_emits _ rfl
  case readHumidity => exact s.request_emits _ rfl
  case readTemperature => exact s.request_emits _ rfl
  case crcUpdate state byte => exact .record (.byteResult opCrcUpdate _ (by decide)) rfl
  case crcCompute16 value => exact .record (.byteResult opCrcCompute16 _ (by decide)) rfl

/-! ## Bus completions -/

section
variable (ok : Bool) (rdata : List Byte) (s : State)

/-- The user-register completion emits its record. -/
theorem userRegDone_emits : Emits s (userRegDone ok rdata s) := by
  cases ok with
  | false => exact .failRequest s s _ _ rfl nofun nofun
  | true => exact .record (.byteResult opReadUserReg _ (by decide)) rfl

/-- The completion of identifier sequence 1 emits sequence 2 or the record of a failure. -/
theorem idSeq1Done_emits : Emits s (idSeq1Done ok rdata s) := by
  cases ok with
  | false => exact .failRequest s s _ _ rfl nofun nofun
  | true =>
    simp only [idSeq1Done, if_true]
    split
    · exact .one (.busReq .idSeq2 rfl) rfl
    · exact .failRequest s (s.storeRead rdata) _ _ rfl nofun nofun

/-- The completion of identifier sequence 2 emits its record. -/
theorem idSeq2Done_emits : Emits s (idSeq2Done ok rdata s) := by
  cases ok with
  | false => exact .failRequest s s _ _ rfl nofun nofun
  | true =>
    simp only [idSeq2Done, if_true]
    split
    · exact .record (.byteResult opReadDeviceId _ (by decide)) rfl
    · exact .failRequest s (s.storeRead rdata) _ _ rfl nofun nofun

/-- The completion of the humidity command emits the timer's start or the record of a failure. -/
theorem humCommandDone_emits : Emits s (humCommandDone ok rdata s) := by
  cases ok with
  | false => exact .failRequest s s _ _ rfl nofun nofun
  | true => exact .one (.timerStart _ _) rfl

/-- The completion of the humidity read emits its record. -/
theorem humReadDone_emits : Emits s (humReadDone ok rdata s) := by
  cases ok with
  | false => exact .failRequest s s _ _ rfl nofun nofun
  | true =>
    simp only [humReadDone, if_true]
    split
    · exact .record (.humidity _) rfl
    · exact .failRequest s (s.storeRead rdata) _ _ rfl nofun nofun

/-- The temperature completion emits its record. -/
theorem tempDone_emits : Emits s (tempDone ok rdata s) := by
  cases ok with
  | false => exact .failRequest s s _ _ rfl nofun nofun
  | true => exact .record (.temperature _) rfl

/-- A bus completion emits outputs of the block alone. -/
theorem busEffect_emits : Emits s (busEffect ok rdata s) := by
  unfold busEffect
  cases s.seqState with
  | idle | humWaitSettle => exact .none rfl
  | humCmdSent => exact humCommandDone_emits ok rdata s
  | humReading => exact humReadDone_emits ok rdata s
  | tempXfer => exact tempDone_emits ok rdata s
  | uregXfer => exact userRegDone_emits ok rdata s
  | idSeq1 => exact idSeq1Done_emits ok rdata s
  | idSeq2 => exact idSeq2Done_emits ok rdata s

end

/-! ## Steps -/

/-- A step that answers a next state emits outputs of the block alone. -/
theorem step_emits (h : step s = .next t) : Emits s t := by
  obtain ⟨-, rfl⟩ | ⟨w, i, rest, -, -, hx⟩ | ⟨w, e, rest, -, -, rfl⟩ | ⟨ok, rdata, n, rest, -, -, -, rfl⟩ |
    ⟨p, rest, -, -, rfl⟩ := step_next_cases s t h
  · exact .none rfl
  · exact exec_emits (s := s.takeInput rest) i hx
  · exact .record (.illegal w) rfl
  · exact busEffect_emits ok rdata (s.takeInput rest)
  · exact .one (.busReq .humReading rfl) rfl

/-! ## Transactions (R78 to R81) -/

/-- The transactions the sequencer states wait for are those of R81. -/
theorem SeqState.pendingXfers_mem_busTable {q : SeqState} {p : Params} {xs : List Xfer}
    (h : q.pendingXfers p = some xs) : xs ∈ busTable p := by
  cases q <;> cases h <;>
    simp [busTable, humCommandXfers, humReadXfers, tempXfers, userRegXfers, idSeq1Xfers, idSeq2Xfers, writeXfer,
      readXfer]

/-- The command bytes of R78. -/
def commandBytes : List Byte := [0xE5, 0xE0, 0xE3, 0xE7, 0xFA, 0x0F, 0xFC, 0xC9]

/-- The reset command is none of them. -/
theorem reset_notMem_commandBytes : (0xFE : Byte) ∉ commandBytes := by decide

/-- Either temperature command is one of them. -/
theorem tempCmdByte_mem_commandBytes (c : TempCmd) : tempCmdByte c ∈ commandBytes := by cases c <;> decide

/-- A descriptor as R79 and R80 want it. -/
structure Xfer.WellFormed (p : Params) (x : Xfer) : Prop where
  addr : x.addr = p.slaveAddr
  len_pos : 1 ≤ x.len
  length_of_write : x.dir = .write → x.wdata.length = x.len
  nil_of_read : x.dir = .read → x.wdata = []
  bytes : ∀ b ∈ x.wdata, b ∈ commandBytes

/-- A write of some command bytes is well formed. -/
theorem writeXfer_wellFormed (p : Params) (stop : Bool) {wdata : List Byte} (hne : wdata ≠ [])
    (hb : ∀ b ∈ wdata, b ∈ commandBytes) : (writeXfer p stop wdata).WellFormed p :=
  ⟨rfl, List.length_pos_iff.2 hne, fun _ => rfl, nofun, hb⟩

/-- A read of some bytes is well formed. -/
theorem readXfer_wellFormed (p : Params) {len : Nat} (h : 1 ≤ len) : (readXfer p len).WellFormed p :=
  ⟨rfl, h, nofun, fun _ => rfl, nofun⟩

/-- So is each descriptor of a command write with a read after it. -/
theorem writeThenRead_wellFormed (p : Params) {wdata : List Byte} {len : Nat} (hne : wdata ≠ [])
    (hb : ∀ b ∈ wdata, b ∈ commandBytes) (hlen : 1 ≤ len) :
    ∀ x ∈ [writeXfer p false wdata, readXfer p len], x.WellFormed p :=
  List.forall_mem_cons.2
    ⟨writeXfer_wellFormed p false hne hb, List.forall_mem_singleton.2 (readXfer_wellFormed p hlen)⟩

/-- The transactions of the block consist of well-formed descriptors. -/
theorem SeqState.pendingXfers_wellFormed {q : SeqState} {p : Params} {xs : List Xfer}
    (h : q.pendingXfers p = some xs) : ∀ x ∈ xs, x.WellFormed p := by
  cases q <;> cases h
  case humCmdSent => exact List.forall_mem_singleton.2 (writeXfer_wellFormed p true nofun (by decide))
  case humReading => exact List.forall_mem_singleton.2 (readXfer_wellFormed p (by decide))
  case tempXfer =>
    have hb : ∀ b ∈ [tempCmdByte p.tempCmd], b ∈ commandBytes :=
      List.forall_mem_singleton.2 (tempCmdByte_mem_commandBytes p.tempCmd)
    exact writeThenRead_wellFormed p nofun hb (by decide)
  case uregXfer => exact writeThenRead_wellFormed p nofun (by decide) (by decide)
  case idSeq1 => exact writeThenRead_wellFormed p nofun (by decide) (by decide)
  case idSeq2 => exact writeThenRead_wellFormed p nofun (by decide) (by decide)

/-- Settles O34: the descriptor belongs to a transaction that a sequencer state waits for. -/
theorem descriptorsWellFormed : Obligations.DescriptorsWellFormed := by
  unfold Obligations.DescriptorsWellFormed
  intro s t new xfers x h ht hnew hx
  cases (step_emits h).emittable ht hnew with
  | busReq q hq =>
    obtain ⟨haddr, hlen, hwrite, hread, hbytes⟩ := SeqState.pendingXfers_wellFormed hq x hx
    exact ⟨haddr, hlen, hwrite, hread, hbytes, fun hreset => reset_notMem_commandBytes (hbytes _ hreset)⟩

/-- Settles O43: a bus request is an old one, or one that a sequencer state waits for. -/
theorem busRequestsStayInTable : Obligations.BusRequestsStayInTable := by
  unfold Obligations.BusRequestsStayInTable State.BusReqsInTable
  intro s t hinv h xfers hmem
  obtain ⟨new, ht, hnew⟩ := step_emits h
  rw [step_next_params h]
  rw [ht, List.mem_append] at hmem
  obtain hold | hmem := hmem
  · exact hinv xfers hold
  · cases hnew _ hmem with
    | busReq q hq => exact SeqState.pendingXfers_mem_busTable hq

/-! ## Completions (R76, R201, R202) -/

/-- Settles O35: by the record. -/
theorem completionShape : Obligations.CompletionShape := by
  unfold Obligations.CompletionShape
  intro s t new c h ht hc
  cases (step_emits h).emittable ht hc with
  | cpl hc =>
    cases hc with
    | init => simp [byteCpl]
    | byteResult op data hop =>
      simpa [byteCpl] using fun _ => hop
    | humidity raw => simp [measurementCpl]
    | temperature raw => simp [measurementCpl]
    | failed op st hok hill =>
      refine ⟨absurd rfl, fun h3 h4 => ⟨if_neg h3, if_neg (not_or.2 ⟨h3, h4⟩)⟩, ?_, ?_, fun h => absurd h hill⟩
      · rintro (rfl : op = 0x3) - -
        exact ⟨rfl, rfl⟩
      · rintro (rfl : op = 0x4) - -
        exact ⟨rfl, rfl⟩
    | illegal w => simp [illegalCpl]

end Sys2Proof.Machine
end

section
/-! O53 and O54: the two identifier checks as equations between check bytes and checksums of data bytes (R105, R106). The
loop of R105 has one equation per pair; R106 differs between its two modes in the seed of the second group alone. -/

namespace Sys2Proof.Machine

open Sys2Proof

/-! ## The shared functions -/

/-- compute16 takes the two bytes in the order they arrive (R101, R50). -/
theorem compute16_be16 (b0 b1 : Byte) :
    compute16 (be16 b0 b1) = crc8Update (crc8Update Config.crcInit b0) b1 := by
  unfold compute16 be16 highByte lowByte
  rw [extract_high, extract_low]

/-! ## The loop over (data, checksum) pairs (R105) -/

@[simp] theorem checkPairs_nil (s : Byte) : checkPairs s [] = true := rfl

/-- A pair passes when its check byte is the state after its data byte; only the data byte enters the state. -/
@[simp] theorem checkPairs_cons_iff (s d c : Byte) (rest : List (Byte × Byte)) :
    checkPairs s ((d, c) :: rest) = true ↔ c = crc8Update s d ∧ checkPairs (crc8Update s d) rest = true := by
  by_cases h : crc8Update s d = c
  · simp [checkPairs, h]
  · simp [checkPairs, h, Ne.symm h]

/-- Settles O53: the loop's equation, once for each of the four pairs. -/
theorem identifierCheckOne : Obligations.IdentifierCheckOne := by
  unfold Obligations.IdentifierCheckOne
  intro r
  simp only [checkId1, Config.crcInit, checkPairs_cons_iff, checkPairs_nil, and_true]

/-! ## The two groups (R106) -/

/-- The seed of the second group, after a first group that ends in the state `s1`. -/
def secondSeed : Id2CrcChain → Byte → Byte
  | .resetPerGroup, _ => Config.crcInit
  | .carried, s1 => s1

/-- Both groups are checked: the first from the zero seed, the second from the seed of the mode. -/
theorem checkId2_iff (chain : Id2CrcChain) (r : Vector Byte 6) :
    checkId2 chain r = true ↔ compute16 (be16 r[0] r[1]) = r[2] ∧
      crc8Update (crc8Update (secondSeed chain (compute16 (be16 r[0] r[1]))) r[3]) r[4] = r[5] := by
  rw [compute16_be16]
  by_cases h : crc8Update (crc8Update Config.crcInit r[0]) r[1] = r[2]
  · cases chain <;> simp [checkId2, secondSeed, h]
  · simp [checkId2, h]

/-- Settles O54: the second group starts from zero in one mode, from the first group's state in the other. -/
theorem identifierCheckTwo : Obligations.IdentifierCheckTwo := by
  unfold Obligations.IdentifierCheckTwo
  constructor
  · intro r
    rw [checkId2_iff, compute16_be16 r[3] r[4]]
    rfl
  · intro r
    rw [checkId2_iff, secondSeed, compute16_be16]
    rfl

end Sys2Proof.Machine
end

section
/-! The obligations of the spec's chapter on register access (41_register_access.md). A sequencer request is
`State.request` of its operation and a bus completion is `busEffect`, each said once; the obligations write the two out
for READ_USER_REG and READ_DEVICE_ID. -/

namespace Sys2Proof.Machine

open Sys2Proof

variable {s : State} {rest : List Event}

/-! ## Sequencer requests (R141 to R143) -/

/-- The request step written out: two refusals, or the first stage. -/
theorem State.request_eq (s : State) (op : OpCode) (xs : List Xfer) (q : SeqState) :
    s.request op xs q =
      if s.seqState ≠ .idle then { s with outputs := s.outputs ++ [.cpl (failedCpl op .busy)] }
      else if s.initDone = false then { s with outputs := s.outputs ++ [.cpl (failedCpl op .notInit)] }
      else { s with seqState := q, outputs := s.outputs ++ [.busReq xs] } := rfl

/-- A request appends one output and writes no register but SEQ_STATE, which a refusal leaves too. -/
theorem State.request_frame (s : State) (op : OpCode) (xs : List Xfer) (q : SeqState) :
    ∃ (q' : SeqState) (o : Output),
      s.request op xs q = { s with seqState := q', outputs := s.outputs ++ [o] } ∧
      (s.seqState ≠ .idle ∨ s.initDone = false → q' = s.seqState) := by
  obtain ⟨-, h⟩ | ⟨-, -, h⟩ | ⟨hi, hd, h⟩ := s.request_cases op xs q
  · exact ⟨s.seqState, _, h, fun _ => rfl⟩
  · exact ⟨s.seqState, _, h, fun _ => rfl⟩
  · exact ⟨q, _, h, by simp [hi, hd]⟩

/-- Each of the four sequencer operations is a request of its opcode. -/
theorem exec_eq_request_of_mem {i : Instr}
    (hi : i ∈ [Instr.readUserReg, .readDeviceId, .readHumidity, .readTemperature]) (s : State) :
    ∃ xs q, exec i s = .next (s.request (opcode i) xs q) := by
  simp only [List.mem_cons, List.not_mem_nil, or_false] at hi
  obtain rfl | rfl | rfl | rfl := hi <;> exact ⟨_, _, rfl⟩

/-- Settles O25: the frame of `State.request`. -/
theorem sequencerRequestFrame : Obligations.SequencerRequestFrame := by
  unfold Obligations.SequencerRequestFrame
  intro i s t hi h
  obtain ⟨xs, q, hx⟩ := exec_eq_request_of_mem hi s
  obtain ⟨q', o, hr, hq'⟩ := s.request_frame (opcode i) xs q
  obtain rfl := Host.Outcome.next.inj ((hr ▸ hx).symm.trans h)
  exact ⟨rfl, rfl, rfl, rfl, rfl, hq', by simp, ⟨[o], rfl⟩⟩

/-! ## Bus completions (R140, R203) -/

/-- A bus completion that keeps the contract has its effect on the state it was taken from. -/
theorem step_busDone {ok : Bool} {rdata : List Byte} {n : Nat} (hs : s.inputs = .busDone ok rdata :: rest)
    (hn : s.seqState.readLen = some n) (hl : ok = true → rdata.length = n) :
    step s = .next (busEffect ok rdata (s.takeInput rest)) := by
  rw [step_cons s _ rest hs]
  exact (busCompletion_next_iff ok rdata (s.takeInput rest) _).2 ⟨n, hn, hl, rfl⟩

/-- The operation that waits for the bus in a sequencer state (R21). -/
def SeqState.busOp : SeqState → Option OpCode
  | .idle | .humWaitSettle => none
  | .humCmdSent | .humReading => some opReadHumidity
  | .tempXfer => some opReadTemperature
  | .uregXfer => some opReadUserReg
  | .idSeq1 | .idSeq2 => some opReadDeviceId

/-- A failed bus completion ends the request of the operation that waits for it, with BUS_ERROR. -/
theorem busEffect_false {op : OpCode} (h : s.seqState.busOp = some op) (rdata : List Byte) :
    busEffect false rdata s = s.failRequest op .busError := by
  cases hq : s.seqState <;> rw [hq] at h
  case idle | humWaitSettle => cases h
  case humCmdSent | humReading | tempXfer | uregXfer | idSeq1 | idSeq2 =>
    cases h
    simp only [busEffect, hq]
    rfl

/-- An operation waits for the bus only where a read length is expected. -/
theorem SeqState.readLen_of_busOp {q : SeqState} {op : OpCode} (h : q.busOp = some op) : ∃ n, q.readLen = some n := by
  cases q <;> cases h <;> exact ⟨_, rfl⟩

/-- The step that consumes a failed bus completion. -/
theorem step_busDone_false {rdata : List Byte} {op : OpCode} (h : s.seqState.busOp = some op)
    (hs : s.inputs = .busDone false rdata :: rest) :
    step s = .next { s with
      seqState := .idle, inputs := rest, outputs := s.outputs ++ [.cpl (failedCpl op .busError)] } := by
  obtain ⟨n, hn⟩ := SeqState.readLen_of_busOp h
  rw [step_busDone hs hn nofun, busEffect_false (s := s.takeInput rest) h]
  rfl

/-! ## READ_USER_REG (R120) -/

/-- A read of one byte writes BUF[0]. -/
theorem fillBuf_singleton (buf : Vector Byte 8) (b : Byte) : fillBuf buf [b] = buf.set 0 b := by
  apply Vector.ext
  intro i h
  rw [fillBuf_getElem, Vector.getElem_set]
  cases i <;> rfl

/-- Settles O11: the request, the one-byte read, and the failure. -/
theorem userRegisterRead : Obligations.UserRegisterRead := by
  unfold Obligations.UserRegisterRead
  refine ⟨decode_encode .readUserReg, fun s => ?_, fun s b rest hq hs => ?_, fun s rdata rest hq hs => ?_⟩
  · exact congrArg Host.Outcome.next (s.request_eq opReadUserReg _ _)
  · rw [step_busDone hs (by rw [hq]; rfl) fun _ => rfl, ← fillBuf_singleton]
    simp only [busEffect, State.takeInput_seqState, hq]
    rfl
  · exact step_busDone_false (by rw [hq]; rfl) hs

/-! ## READ_DEVICE_ID (R121, R122) -/

/-- Settles O12: the request of sequence 1. -/
theorem deviceIdRequest : Obligations.DeviceIdRequest := by
  unfold Obligations.DeviceIdRequest
  exact ⟨decode_encode .readDeviceId, fun s => congrArg Host.Outcome.next (s.request_eq opReadDeviceId _ _)⟩

/-- A sequence-1 read: sequence 2 is sent after a good check alone. -/
theorem idSeq1Done_true (rdata : List Byte) (s : State) :
    idSeq1Done true rdata s =
      if checkId1 (fillBuf s.buf rdata) then (s.storeRead rdata).startBus (idSeq2Xfers s.params) .idSeq2
      else (s.storeRead rdata).failRequest opReadDeviceId .dataCorruption := rfl

/-- Settles O13: sequence 2 after a good check, else the failure the check or the bus reports. -/
theorem deviceIdSequenceOne : Obligations.DeviceIdSequenceOne := by
  unfold Obligations.DeviceIdSequenceOne
  refine ⟨fun s b0 b1 b2 b3 b4 b5 b6 b7 rest hq hs => ?_, fun s rdata rest hq hs => ?_⟩
  · rw [step_busDone hs (by rw [hq]; rfl) fun _ => rfl]
    simp only [busEffect, State.takeInput_seqState, hq]
    rw [idSeq1Done_true, State.takeInput_buf, fillBuf_eight]
    by_cases hc : checkId1 #v[b0, b1, b2, b3, b4, b5, b6, b7] = true
    · rw [if_pos hc, if_pos hc]
      rfl
    · rw [if_neg hc, if_neg hc]
      rfl
  · exact step_busDone_false (by rw [hq]; rfl) hs

/-- The identifier, the top byte of the assembled value, is the first byte of sequence 2. -/
theorem identifier_eq (r : Vector Byte 6) : identifier r = r[0] := by
  unfold identifier id32
  rw [BitVec.extractLsb'_append_eq_of_le (by decide), BitVec.extractLsb'_append_eq_of_le (by decide)]
  exact extract_high r[0] r[1]

/-- Settles O55: the assembly is `id32`, and its top byte is r[0]. -/
theorem identifierIsTopByte : Obligations.IdentifierIsTopByte := by
  unfold Obligations.IdentifierIsTopByte
  exact fun r => ⟨rfl, rfl, identifier_eq r⟩

/-- A sequence-2 read: the request ends, after a good check with the first byte of the read. -/
theorem idSeq2Done_true (rdata : List Byte) (s : State) :
    idSeq2Done true rdata s =
      if checkId2 s.params.id2CrcChain (firstSix (fillBuf s.buf rdata)) then
        (s.storeRead rdata).finish (byteCpl opReadDeviceId (firstSix (fillBuf s.buf rdata))[0])
      else (s.storeRead rdata).failRequest opReadDeviceId .dataCorruption := by
  rw [← identifier_eq]
  rfl

/-- The bytes of a sequence-2 read are the six just received. -/
theorem firstSix_fillBuf (buf : Vector Byte 8) (b0 b1 b2 b3 b4 b5 : Byte) :
    firstSix (fillBuf buf [b0, b1, b2, b3, b4, b5]) = #v[b0, b1, b2, b3, b4, b5] := rfl

/-- Settles O14: the identifier after a good check, else the failure the check or the bus reports. -/
theorem deviceIdSequenceTwo : Obligations.DeviceIdSequenceTwo := by
  unfold Obligations.DeviceIdSequenceTwo
  refine ⟨fun s b0 b1 b2 b3 b4 b5 rest hq hs => ?_, fun s rdata rest hq hs => ?_⟩
  · rw [step_busDone hs (by rw [hq]; rfl) fun _ => rfl]
    simp only [busEffect, State.takeInput_seqState, hq]
    rw [idSeq2Done_true, State.takeInput_buf, State.takeInput_params, firstSix_fillBuf]
    by_cases hc : checkId2 s.params.id2CrcChain #v[b0, b1, b2, b3, b4, b5] = true
    · rw [if_pos hc, if_pos hc]
      rfl
    · rw [if_neg hc, if_neg hc]
      rfl
  · exact step_busDone_false (by rw [hq]; rfl) hs

end Sys2Proof.Machine
end

section
/-! The obligations of the spec's sequencer chapter on one operation and one event (42_sequencer.md): each request as
`State.request` of its operation, each completion as the effect of its stage, and a whole humidity request as the chain
of its four steps. -/

namespace Sys2Proof.Machine

open Sys2Proof

variable {s : State} {rest : List Event}

/-! ## Host requests (R140 to R142) -/

/-- Settles O6: the step law of an event, and the law of a decoded request. -/
theorem stepRunsDecodedRequest : Obligations.StepRunsDecodedRequest := by
  unfold Obligations.StepRunsDecodedRequest
  intro s w rest i hs hd
  rw [step_cons s _ rest hs]
  exact hostRequest_of_ok w i (s.takeInput rest) hd

/-- Away from IDLE a request is refused BUSY. -/
theorem State.request_busy (h : s.seqState ≠ .idle) (op : OpCode) (xs : List Xfer) (q : SeqState) :
    s.request op xs q = s.refuse op .busy := if_pos h

/-- In IDLE before INIT a request is refused NOT_INIT. -/
theorem State.request_notInit (hq : s.seqState = .idle) (hd : s.initDone = false) (op : OpCode) (xs : List Xfer)
    (q : SeqState) : s.request op xs q = s.refuse op .notInit := (if_neg (not_not.2 hq)).trans (if_pos hd)

/-- In IDLE after INIT a request starts its first stage. -/
theorem State.request_accepted (hq : s.seqState = .idle) (hd : s.initDone = true) (op : OpCode) (xs : List Xfer)
    (q : SeqState) : s.request op xs q = s.startBus xs q :=
  (if_neg (not_not.2 hq)).trans (if_neg (by simp [hd]))

/-- Where requests are refused, each of the four operations answers its record with its sentinel and no more. -/
theorem exec_refused {st : Status} (h : ∀ op xs q, s.request op xs q = s.refuse op st) :
    exec .readUserReg s = .next { s with outputs := s.outputs ++ [.cpl ⟨0x1, st, 0, 0, 0⟩] } ∧
    exec .readDeviceId s = .next { s with outputs := s.outputs ++ [.cpl ⟨0x2, st, 0, 0, 0⟩] } ∧
    exec .readHumidity s = .next { s with outputs := s.outputs ++ [.cpl ⟨0x3, st, 0, 0xFFFF, -1⟩] } ∧
    exec .readTemperature s = .next { s with outputs := s.outputs ++ [.cpl ⟨0x4, st, 0, 0, -1⟩] } :=
  ⟨congrArg Host.Outcome.next (h opReadUserReg _ _), congrArg Host.Outcome.next (h opReadDeviceId _ _),
    congrArg Host.Outcome.next (h opReadHumidity _ _), congrArg Host.Outcome.next (h opReadTemperature _ _)⟩

/-- Settles O23: every request is refused BUSY. -/
theorem busyRefusal : Obligations.BusyRefusal := by
  unfold Obligations.BusyRefusal
  exact fun s hq => exec_refused (State.request_busy hq)

/-- Settles O24: every request is refused NOT_INIT. -/
theorem notInitRefusal : Obligations.NotInitRefusal := by
  unfold Obligations.NotInitRefusal
  exact fun s hq hd => exec_refused (State.request_notInit hq hd)

/-! ## INIT and the CRC operations (R150, R102, R103) -/

/-- The first INIT creates the timer and sets INIT_DONE. -/
theorem exec_init_first (hd : s.initDone = false) :
    exec .init s = .next ((s.emit [.timerCreate]).setInitDone.complete (byteCpl opInit 0)) := by
  simp [exec, execInit, hd]

/-- A repeated INIT only completes. -/
theorem exec_init_again (hd : s.initDone = true) : exec .init s = .next (s.complete (byteCpl opInit 0)) := by
  simp [exec, execInit, hd]

/-- Settles O10: by INIT_DONE. -/
theorem initCompletes : Obligations.InitCompletes := by
  unfold Obligations.InitCompletes
  refine ⟨decode_encode .init, fun s => ?_⟩
  split
  next hd =>
    rw [exec_init_first hd]
    exact congrArg (fun outs => Host.Outcome.next { s with initDone := true, outputs := outs })
      (List.append_assoc s.outputs [.timerCreate] [.cpl (byteCpl opInit 0)])
  next hd => exact exec_init_again (Bool.not_eq_false _ ▸ hd)

/-- Settles O26: each of the three appends its record and writes no register, but for the first INIT, which sets
INIT_DONE. -/
theorem singleStepOperationFrame : Obligations.SingleStepOperationFrame := by
  unfold Obligations.SingleStepOperationFrame
  rintro i s t (rfl | ⟨a, b, rfl⟩ | ⟨v, rfl⟩) h
  · cases hd : s.initDone with
    | false =>
      obtain rfl := Host.Outcome.next.inj ((exec_init_first hd).symm.trans h)
      exact ⟨rfl, rfl, rfl, rfl, rfl, absurd rfl, nofun, by simp⟩
    | true =>
      obtain rfl := Host.Outcome.next.inj ((exec_init_again hd).symm.trans h)
      exact ⟨rfl, rfl, rfl, rfl, rfl, absurd rfl, fun _ => hd, by simp⟩
  · obtain rfl := Host.Outcome.next.inj h
    exact ⟨rfl, rfl, rfl, rfl, rfl, fun _ => rfl, id, by simp⟩
  · obtain rfl := Host.Outcome.next.inj h
    exact ⟨rfl, rfl, rfl, rfl, rfl, fun _ => rfl, id, by simp⟩

/-! ## READ_HUMIDITY (R152 to R155) -/

/-- Settles O15: the request of stage 1. -/
theorem humidityRequest : Obligations.HumidityRequest := by
  unfold Obligations.HumidityRequest
  exact ⟨decode_encode .readHumidity, fun s => congrArg Host.Outcome.next (s.request_eq opReadHumidity _ _)⟩

/-- The completion of the command write arms the timer and, its read being empty, leaves BUF as it was. -/
theorem humCommandDone_true_nil (s : State) :
    humCommandDone true [] s = (s.emit [.timerStart Config.settleMs .ctxHum]).goto .humWaitSettle := by
  simp [humCommandDone, State.storeRead, fillBuf_nil]

/-- Settles O16: the timer after a written command, else the failure the bus reports. -/
theorem humidityCommandCompletion : Obligations.HumidityCommandCompletion := by
  unfold Obligations.HumidityCommandCompletion
  refine ⟨fun s rest hq hs => ?_, fun s rdata rest hq hs => ?_⟩
  · rw [step_busDone hs (by rw [hq]; rfl) fun _ => rfl]
    simp only [busEffect, State.takeInput_seqState, hq]
    rw [humCommandDone_true_nil]
    rfl
  · exact step_busDone_false (by rw [hq]; rfl) hs

/-- Settles O17: the expiry is expected, and the read is the effect of the settle delay. -/
theorem humiditySettled : Obligations.HumiditySettled := by
  unfold Obligations.HumiditySettled
  intro s payload rest hq hs
  rw [step_cons s _ rest hs]
  exact (timerExpiry_next_iff payload (s.takeInput rest) _).2 ⟨hq, rfl⟩

/-- The check of a measurement compares the checksum of the code as read with the third byte. -/
theorem checkMeasurement_iff (b0 b1 c : Byte) : checkMeasurement b0 b1 c = true ↔ compute16 (b0 ++ b1) = c :=
  beq_iff_eq

/-- A humidity read: the request ends, after a good check with the code as reported and the converted masked code. -/
theorem humReadDone_true (b0 b1 c : Byte) (s : State) :
    humReadDone true [b0, b1, c] s =
      if checkMeasurement b0 b1 c then
        (s.storeRead [b0, b1, c]).finish (measurementCpl opReadHumidity
          (reportedRaw s.params.humRawReport (b0 ++ b1)) (convH ((b0 ++ b1) &&& 0xFFFC)))
      else (s.storeRead [b0, b1, c]).failRequest opReadHumidity .dataCorruption := rfl

/-- Settles O18: the measurement after a good check, else the failure the check or the bus reports. -/
theorem humidityReadCompletion : Obligations.HumidityReadCompletion := by
  unfold Obligations.HumidityReadCompletion
  refine ⟨fun s b0 b1 c rest hq hs => ?_, fun s rdata rest hq hs => ?_⟩
  · rw [step_busDone hs (by rw [hq]; rfl) fun _ => rfl]
    simp only [busEffect, State.takeInput_seqState, hq]
    rw [humReadDone_true]
    by_cases hc : compute16 (b0 ++ b1) = c
    · rw [if_pos hc, if_pos ((checkMeasurement_iff b0 b1 c).2 hc)]
      rfl
    · rw [if_neg hc, if_neg (mt (checkMeasurement_iff b0 b1 c).1 hc)]
      rfl
  · exact step_busDone_false (by rw [hq]; rfl) hs

/-- The step that takes a humidity request in an idle, initialised block starts stage 1. -/
theorem step_humidityRequest (hq : s.seqState = .idle) (hd : s.initDone = true)
    (hs : s.inputs = .hostReq 0x300000 :: rest) :
    step s = .next ((s.takeInput rest).startBus (humCommandXfers s.params) .humCmdSent) :=
  (stepRunsDecodedRequest s _ rest _ hs (decode_encode .readHumidity)).trans
    (congrArg Host.Outcome.next (State.request_accepted (s := s.takeInput rest) hq hd opReadHumidity _ _))

/-- Settles O49: the request, the command completion, the expiry and the read, one step after the other. -/
theorem humidityRequestCompletes : Obligations.HumidityRequestCompletes := by
  unfold Obligations.HumidityRequestCompletes
  intro s payload b0 b1 rest hq hd hs
  obtain ⟨commandDone, -⟩ := humidityCommandCompletion
  obtain ⟨readDone, -⟩ := humidityReadCompletion
  have run := calc runSteps 4 s
      _ = runSteps 3 _ := runSteps_succ 3 _ _ (step_humidityRequest hq hd hs)
      _ = runSteps 2 _ := runSteps_succ 2 _ _ (commandDone _ _ rfl rfl)
      _ = runSteps 1 _ := runSteps_succ 1 _ _ (humiditySettled _ payload _ rfl rfl)
      _ = .next _ := runSteps_succ 0 _ _ (readDone _ b0 b1 _ rest rfl rfl)
  rw [if_pos rfl] at run
  have outputs_of_four : ∀ o1 o2 o3 o4 : Output,
      s.outputs ++ [o1] ++ [o2] ++ [o3] ++ [o4] = s.outputs ++ [o1, o2, o3, o4] := by simp
  refine ⟨_, measurementCpl opReadHumidity (reportedRaw s.params.humRawReport (b0 ++ b1))
    (convH ((b0 ++ b1) &&& 0xFFFC)), run, rfl, rfl, rfl, rfl, rfl, ?_, fun herr => ⟨run, rfl, herr⟩⟩
  exact outputs_of_four _ _ _ _

/-! ## READ_TEMPERATURE (R156, R157) -/

/-- Settles O19: the request, with the byte of TEMP_CMD. -/
theorem temperatureRequest : Obligations.TemperatureRequest := by
  unfold Obligations.TemperatureRequest
  exact ⟨decode_encode .readTemperature, fun s => congrArg Host.Outcome.next (s.request_eq opReadTemperature _ _)⟩

/-- Settles O20: the code as read, else the failure the bus reports. -/
theorem temperatureCompletion : Obligations.TemperatureCompletion := by
  unfold Obligations.TemperatureCompletion
  refine ⟨fun s b0 b1 rest hq hs => ?_, fun s rdata rest hq hs => ?_⟩
  · rw [step_busDone hs (by rw [hq]; rfl) fun _ => rfl]
    simp only [busEffect, State.takeInput_seqState, hq]
    rfl
  · exact step_busDone_false (by rw [hq]; rfl) hs

/-- Settles O56: the bits of the mask, and the code has none above bit 15. -/
theorem maskClearsTwoBits : Obligations.MaskClearsTwoBits := by
  unfold Obligations.MaskClearsTwoBits
  intro raw i
  have mask_bits : ∀ i < 16, (0xFFFC : RawCode).getLsbD i = decide (2 ≤ i) := by decide
  refine ⟨rfl, ?_⟩
  rw [maskH, BitVec.getLsbD_and, Bool.and_comm]
  by_cases hi : i < 16
  · rw [mask_bits i hi]
  · simp [BitVec.getLsbD_of_ge raw i (Nat.le_of_not_lt hi)]

/-! ## Unexpected events (R144) -/

/-- Settles O30: by the sequencer state. -/
theorem readLengths : Obligations.ReadLengths := by
  unfold Obligations.ReadLengths
  exact ⟨rfl, rfl, rfl, rfl, rfl, rfl, fun q => by cases q <;> rfl⟩

/-- Settles O29: the branches of the two completions that raise a fault. -/
theorem unexpectedEventsFault : Obligations.UnexpectedEventsFault := by
  unfold Obligations.UnexpectedEventsFault
  refine ⟨fun s ok rdata rest hs hq => ?_, fun s rdata rest n hs hn hl => ?_, fun s payload rest hs hq => ?_⟩
  · have hnone : s.seqState.readLen = none := by obtain hq | hq := hq <;> rw [hq] <;> rfl
    rw [step_cons s _ rest hs]
    simp only [consume, busCompletion, State.takeInput_seqState, hnone]
    rfl
  · rw [step_cons s _ rest hs]
    simp only [consume, busCompletion, State.takeInput_seqState, hn]
    exact if_pos ⟨trivial, hl⟩
  · rw [step_cons s _ rest hs]
    exact if_neg hq

end Sys2Proof.Machine
end

section
/-! The obligations of the sequencer chapter on what every step keeps and emits (R143, R145, R146), by the effects of
the event. -/

namespace Sys2Proof.Machine

open Sys2Proof

/-- A state that waits for the bus has a request in flight. -/
theorem SeqState.inFlight_of_busOutstanding {q : SeqState} (h : q.busOutstanding = true) : q.inFlight = true := by
  cases q <;> simp_all [SeqState.busOutstanding, SeqState.inFlight]

/-- In IDLE no request is in flight. -/
@[simp] theorem SeqState.idle_inFlight : SeqState.idle.inFlight = false := rfl

/-! ## What one step emits (R145) -/

/-- `new` can be what a step that ends in `t` emits: at most one output of a kind, no stage begun beside a completion,
and a begun stage is the one `t` waits in. -/
def WithinStep (t : State) (new : List Output) : Prop :=
  new.countP Output.isBusReq ≤ 1 ∧ new.countP Output.isTimer ≤ 1 ∧ new.countP Output.isCpl ≤ 1 ∧
  (new.countP Output.isCpl = 1 → new.countP Output.isBusReq = 0 ∧ new.countP Output.isTimerStart = 0) ∧
  (∀ xfers, .busReq xfers ∈ new → t.seqState.pendingXfers t.params = some xfers) ∧
  (new.countP Output.isTimerStart = 1 → t.seqState = .humWaitSettle)

namespace WithinStep

variable (t : State)

/-- A step may emit nothing. -/
theorem nil : WithinStep t [] := by simp [WithinStep]

/-- A step may emit one completion. -/
theorem cpl (c : Completion) : WithinStep t [.cpl c] := by
  simp [WithinStep, Output.isBusReq, Output.isTimer, Output.isTimerStart, Output.isCpl]

/-- A step may create the timer and complete. -/
theorem timerCreate_cpl (c : Completion) : WithinStep t [.timerCreate, .cpl c] := by
  simp [WithinStep, List.countP_cons, Output.isBusReq, Output.isTimer, Output.isTimerStart, Output.isCpl]

/-- A step may send the transaction it then waits for. -/
theorem busReq {xs : List Xfer} (h : t.seqState.pendingXfers t.params = some xs) : WithinStep t [.busReq xs] := by
  simp [WithinStep, Output.isBusReq, Output.isTimer, Output.isTimerStart, Output.isCpl, h]

/-- A step may arm the timer whose expiry it then waits for. -/
theorem timerStart (ms : Nat) (payload : Payload) (h : t.seqState = .humWaitSettle) :
    WithinStep t [.timerStart ms payload] := by
  simp [WithinStep, Output.isBusReq, Output.isTimer, Output.isTimerStart, Output.isCpl, h]

end WithinStep

namespace EventEffect

variable {s t : State} {e : Event}

/-- Every effect emits what a step may emit. -/
theorem withinStep (h : EventEffect s e t) : ∃ new, t.outputs = s.outputs ++ new ∧ WithinStep t new := by
  cases h with
  | completed w c | failed rdata c | ended rdata c => exact ⟨_, rfl, .cpl _ c⟩
  | firstInit w c => exact ⟨_, List.append_assoc _ _ _, .timerCreate_cpl _ c⟩
  | accepted w xs q hi hd hq => exact ⟨_, rfl, .busReq _ hq⟩
  | sequenceTwo rdata => exact ⟨_, rfl, .busReq _ rfl⟩
  | armed rdata => exact ⟨_, rfl, .timerStart _ _ _ rfl⟩
  | settled p => exact ⟨_, rfl, .busReq _ rfl⟩

/-- Completions and the request in flight grow together by the host requests consumed. -/
theorem cpl_account (h : EventEffect s e t) :
    t.outputs.countP Output.isCpl + oneIf t.seqState.inFlight =
      s.outputs.countP Output.isCpl + oneIf s.seqState.inFlight + oneIf e.isHostReq := by
  cases h with
  | completed | firstInit => simp [Output.isCpl, Event.isHostReq, Nat.add_right_comm]
  | accepted w xs q hi hd hq =>
    have hf := SeqState.inFlight_of_busOutstanding (SeqState.busOutstanding_of_pendingXfers hq)
    simp [hi, hf, Output.isCpl, Event.isHostReq]
  | failed rdata c hb | ended rdata c hb =>
    simp [SeqState.inFlight_of_busOutstanding hb, Output.isCpl, Event.isHostReq]
  | sequenceTwo rdata hq | armed rdata hq | settled rdata hq =>
    simp [hq, SeqState.inFlight, oneIf, Output.isCpl, Event.isHostReq]

/-- SEQ_STATE leaves IDLE in an accepted request alone, and INIT_DONE never falls. -/
theorem inv (h : EventEffect s e t) (hs : s.Inv) : t.Inv := by
  cases h with
  | completed => exact hs
  | firstInit => exact fun _ => rfl
  | accepted w xs q hi hd => exact fun _ => hd
  | failed | ended => exact absurd rfl
  | sequenceTwo rdata hq | armed rdata hq | settled rdata hq => exact fun _ => hs (by simp [hq])

end EventEffect

/-- Settles O33: by the effect of the event. -/
theorem outputsPerStep : Obligations.OutputsPerStep := by
  unfold Obligations.OutputsPerStep
  intro s t h
  cases hs : s.inputs with
  | nil =>
    obtain rfl : s = t := Host.Outcome.next.inj ((step_nil s hs).symm.trans h)
    exact ⟨[], (List.append_nil _).symm, WithinStep.nil s⟩
  | cons e rest => exact (step_effect hs h).withinStep

/-- Settles O39: the account of the effects, over the outputs of the state the event was taken from. -/
theorem oneCompletionPerRequest : Obligations.OneCompletionPerRequest := by
  unfold Obligations.OneCompletionPerRequest
  exact fun s t e rest hs h => (step_effect hs h).cpl_account

/-- A step that answers a next state keeps that the block is initialised away from IDLE. -/
theorem step_next_inv {s t : State} (hinv : s.Inv) (h : step s = .next t) : t.Inv := by
  cases hs : s.inputs with
  | nil =>
    obtain rfl : s = t := Host.Outcome.next.inj ((step_nil s hs).symm.trans h)
    exact hinv
  | cons e rest => exact (step_effect hs h).inv hinv

/-- Settles O41: by the outcome of the step; a fault touches neither register. -/
theorem initialisedWhenBusy : Obligations.InitialisedWhenBusy := by
  unfold Obligations.InitialisedWhenBusy
  intro s hinv
  unfold hardwareNext
  split
  next t ht => exact step_next_inv hinv ht
  next f hf =>
    obtain ⟨e, rest, -, hafter⟩ := step_fault_after hf
    rw [hafter]
    exact hinv
  next => exact hinv

end Sys2Proof.Machine
end

section
/-! The step against the transition table of R159. Each row of the table is what the machine does with its event, and
each event the machine answers has a row; the stages of R160 are then read off the rows. -/

namespace Sys2Proof.Machine

open Sys2Proof

/-- A row of the table takes `s`, from which `e` was already taken, to `t`. -/
def TableStep (s : State) (e : Event) (t : State) : Prop :=
  ∃ outs q d, TableRow s.params s.seqState s.initDone e outs q d ∧
    t = { s with seqState := q, initDone := d, buf := bufAfter e s.buf, outputs := s.outputs ++ outs }

/-! ## From the table to the machine -/

/-- A request with an operation's word is executed. -/
theorem hostRequest_encode (i : Instr) (s : State) : hostRequest (encode i) s = exec i s :=
  hostRequest_of_ok (encode i) i s (decode_encode i)

/-- The machine does with an event what a row of the table says. -/
theorem consume_of_tableStep {s t : State} {e : Event} (h : TableStep s e t) : consume e s = .next t := by
  obtain ⟨outs, q, d, row, rfl⟩ := h
  obtain ⟨q0, d0, err, buf, p, inputs, outputs⟩ := s
  cases row with
  | initFirst | initAgain => exact (hostRequest_encode .init _).trans (initCompletes.2 _)
  | userReg | userRegNotInit => exact hostRequest_encode .readUserReg _
  | deviceId | deviceIdNotInit => exact hostRequest_encode .readDeviceId _
  | humidity | humidityNotInit => exact hostRequest_encode .readHumidity _
  | temperature | temperatureNotInit => exact hostRequest_encode .readTemperature _
  | userRegBusy q d hq | deviceIdBusy q d hq | humidityBusy q d hq | temperatureBusy q d hq =>
    exact congrArg Host.Outcome.next (if_pos hq)
  | crcUpdate q d state byte =>
    rw [← encode_crcUpdate]
    exact hostRequest_encode _ _
  | crcCompute16 q d value =>
    rw [← encode_crcCompute16]
    exact hostRequest_encode _ _
  | illegal q d w hw =>
    obtain ⟨e, he⟩ := (decode_error_iff w).2 hw
    exact hostRequest_of_error w e _ he
  | userRegOk | humCommandOk | settled | tempOk => rfl
  | userRegFail | idSeq1Fail | idSeq2Fail | humCommandFail | humReadFail | tempFail => rfl
  | idSeq1Pass d b0 b1 b2 b3 b4 b5 b6 b7 hc => exact congrArg Host.Outcome.next (if_pos hc)
  | idSeq1Corrupt d b0 b1 b2 b3 b4 b5 b6 b7 hc => exact congrArg Host.Outcome.next (if_neg (Bool.eq_false_iff.1 hc))
  | idSeq2Pass d b0 b1 b2 b3 b4 b5 hc =>
    exact congrArg Host.Outcome.next ((idSeq2Done_true _ _).trans (if_pos hc))
  | idSeq2Corrupt d b0 b1 b2 b3 b4 b5 hc => exact congrArg Host.Outcome.next (if_neg (Bool.eq_false_iff.1 hc))
  | humReadOk d b0 b1 c hc => exact congrArg Host.Outcome.next (if_pos hc)
  | humReadCorrupt d b0 b1 c hc => exact congrArg Host.Outcome.next (if_neg (Bool.eq_false_iff.1 hc))

/-! ## From the machine to the table -/

/-- A request is in the table if its two refusals and its first stage are. -/
theorem State.request_tableStep {s : State} {w : ReqWord} {op : OpCode} {xs : List Xfer} {q : SeqState}
    (hbusy : s.seqState ≠ .idle →
      TableRow s.params s.seqState s.initDone (.hostReq w) [.cpl (failedCpl op .busy)] s.seqState s.initDone)
    (hnotInit : TableRow s.params .idle false (.hostReq w) [.cpl (failedCpl op .notInit)] .idle false)
    (haccepted : TableRow s.params .idle true (.hostReq w) [.busReq xs] q true) :
    TableStep s (.hostReq w) (s.request op xs q) := by
  obtain ⟨hq, h⟩ | ⟨hq, hd, h⟩ | ⟨hq, hd, h⟩ := s.request_cases op xs q <;> rw [h]
  · exact ⟨_, _, _, hbusy hq, rfl⟩
  · rw [← hq, ← hd] at hnotInit
    exact ⟨_, _, _, hnotInit, rfl⟩
  · rw [← hq, ← hd] at haccepted
    exact ⟨_, _, _, haccepted, rfl⟩

/-- What an operation does is in the table, under its word. -/
theorem exec_tableStep {i : Instr} {s t : State} (h : exec i s = .next t) : TableStep s (.hostReq (encode i)) t := by
  cases i <;> obtain rfl := Host.Outcome.next.inj h
  case init =>
    obtain ⟨q, d, err, buf, p, inputs, outputs⟩ := s
    cases d with
    | false => exact ⟨_, _, _, .initFirst q, Host.Outcome.next.inj (initCompletes.2 _)⟩
    | true => exact ⟨_, _, _, .initAgain q, rfl⟩
  case readUserReg => exact State.request_tableStep (.userRegBusy _ _) .userRegNotInit .userReg
  case readDeviceId => exact State.request_tableStep (.deviceIdBusy _ _) .deviceIdNotInit .deviceId
  case readHumidity => exact State.request_tableStep (.humidityBusy _ _) .humidityNotInit .humidity
  case readTemperature => exact State.request_tableStep (.temperatureBusy _ _) .temperatureNotInit .temperature
  case crcUpdate state byte =>
    rw [encode_crcUpdate]
    exact ⟨_, _, _, .crcUpdate _ _ state byte, rfl⟩
  case crcCompute16 value =>
    rw [encode_crcCompute16]
    exact ⟨_, _, _, .crcCompute16 _ _ value, rfl⟩

/-- A failed bus completion is in the table, in each of the six states that wait for one. -/
theorem busEffect_false_tableStep {s : State} {n : Nat} (hn : s.seqState.readLen = some n) (rdata : List Byte) :
    TableStep s (.busDone false rdata) (busEffect false rdata s) := by
  obtain ⟨q, d, err, buf, p, inputs, outputs⟩ := s
  cases q
  case idle | humWaitSettle => cases hn
  case humCmdSent => exact ⟨_, _, _, .humCommandFail d rdata, rfl⟩
  case humReading => exact ⟨_, _, _, .humReadFail d rdata, rfl⟩
  case tempXfer => exact ⟨_, _, _, .tempFail d rdata, rfl⟩
  case uregXfer => exact ⟨_, _, _, .userRegFail d rdata, rfl⟩
  case idSeq1 => exact ⟨_, _, _, .idSeq1Fail d rdata, rfl⟩
  case idSeq2 => exact ⟨_, _, _, .idSeq2Fail d rdata, rfl⟩

/-- A successful bus completion of the expected length is in the table; a checked read has a row for either outcome. -/
theorem busEffect_true_tableStep {s : State} {n : Nat} (hn : s.seqState.readLen = some n) {rdata : List Byte}
    (hl : rdata.length = n) : TableStep s (.busDone true rdata) (busEffect true rdata s) := by
  obtain ⟨q, d, err, buf, p, inputs, outputs⟩ := s
  cases q <;> cases hn
  case humCmdSent =>
    obtain rfl := List.length_eq_zero_iff.1 hl
    exact ⟨_, _, _, .humCommandOk d, rfl⟩
  case humReading =>
    obtain ⟨b0, b1, c, rfl⟩ := List.length_eq_three.1 hl
    by_cases hc : checkMeasurement b0 b1 c = true
    · exact ⟨_, _, _, .humReadOk d b0 b1 c hc, if_pos hc⟩
    · exact ⟨_, _, _, .humReadCorrupt d b0 b1 c (Bool.eq_false_iff.2 hc), if_neg hc⟩
  case tempXfer =>
    obtain ⟨b0, b1, rfl⟩ := List.length_eq_two.1 hl
    exact ⟨_, _, _, .tempOk d b0 b1, rfl⟩
  case uregXfer =>
    obtain ⟨b, rfl⟩ := List.length_eq_one_iff.1 hl
    exact ⟨_, _, _, .userRegOk d b, rfl⟩
  case idSeq1 =>
    match rdata, hl with
    | [b0, b1, b2, b3, b4, b5, b6, b7], _ =>
      by_cases hc : checkId1 #v[b0, b1, b2, b3, b4, b5, b6, b7] = true
      · exact ⟨_, _, _, .idSeq1Pass d b0 b1 b2 b3 b4 b5 b6 b7 hc, if_pos hc⟩
      · exact ⟨_, _, _, .idSeq1Corrupt d b0 b1 b2 b3 b4 b5 b6 b7 (Bool.eq_false_iff.2 hc), if_neg hc⟩
  case idSeq2 =>
    match rdata, hl with
    | [b0, b1, b2, b3, b4, b5], _ =>
      by_cases hc : checkId2 p.id2CrcChain #v[b0, b1, b2, b3, b4, b5] = true
      · exact ⟨_, _, _, .idSeq2Pass d b0 b1 b2 b3 b4 b5 hc, (idSeq2Done_true _ _).trans (if_pos hc)⟩
      · exact ⟨_, _, _, .idSeq2Corrupt d b0 b1 b2 b3 b4 b5 (Bool.eq_false_iff.2 hc), if_neg hc⟩

/-- What the machine does with an event it answers is in the table. -/
theorem tableStep_of_consume {s t : State} {e : Event} (h : consume e s = .next t) : TableStep s e t := by
  cases e with
  | hostReq w =>
    cases hw : decode w with
    | ok i =>
      obtain rfl := encode_of_decode hw
      exact exec_tableStep ((hostRequest_encode i s).symm.trans h)
    | error e =>
      obtain rfl := Host.Outcome.next.inj ((hostRequest_of_error w e s hw).symm.trans h)
      exact ⟨_, _, _, .illegal _ _ w ((decode_error_iff w).1 ⟨e, hw⟩), rfl⟩
  | busDone ok rdata =>
    obtain ⟨n, hn, hl, rfl⟩ := (busCompletion_next_iff ok rdata s t).1 h
    cases ok with
    | false => exact busEffect_false_tableStep hn rdata
    | true => exact busEffect_true_tableStep hn (hl rfl)
  | timerExpired payload =>
    obtain ⟨hq, rfl⟩ := (timerExpiry_next_iff payload s t).1 h
    have row := TableRow.settled (p := s.params) s.initDone payload
    rw [← hq] at row
    exact ⟨_, _, _, row, rfl⟩

/-- Settles O46: both directions, from the state the event was taken from. -/
theorem stepIsTheTransitionTable : Obligations.StepIsTheTransitionTable := by
  unfold Obligations.StepIsTheTransitionTable
  intro s t e rest hs
  rw [step_cons s e rest hs]
  exact ⟨tableStep_of_consume (s := s.takeInput rest), consume_of_tableStep (s := s.takeInput rest)⟩

/-! ## The stages of a request (R58, R146, R160) -/

/-- Reading a row's outputs from its state gives its next state. The first INIT is read in IDLE alone, so the block must
be initialised away from it. -/
theorem TableRow.trackOutputs_eq {p : Params} {q q' : SeqState} {d d' : Bool} {e : Event} {outs : List Output}
    (row : TableRow p q d e outs q' d') (hinit : q ≠ .idle → d = true) : trackOutputs p q outs = some q' := by
  cases row with
  | initFirst =>
    obtain rfl : q = .idle := by
      by_contra hq
      exact nomatch hinit hq
    rfl
  | userRegBusy q d hq | deviceIdBusy q d hq | humidityBusy q d hq | temperatureBusy q d hq =>
    simp [trackOutputs, trackOutput, trackCpl, hq]
  | userReg | deviceId | humidity | temperature | idSeq1Pass | settled =>
    simp [trackOutputs, trackOutput, trackBusReq]
  | initAgain | crcUpdate | crcCompute16 | illegal | humCommandOk => rfl
  | userRegNotInit | deviceIdNotInit | humidityNotInit | temperatureNotInit => rfl
  | userRegOk | idSeq2Pass | humReadOk | tempOk | idSeq1Corrupt | idSeq2Corrupt | humReadCorrupt => rfl
  | userRegFail | idSeq1Fail | idSeq2Fail | humCommandFail | humReadFail | tempFail => rfl

/-- Settles O44: the outputs of the step are those of its row, read after the earlier ones. -/
theorem outputProtocolKept : Obligations.OutputProtocolKept := by
  unfold Obligations.OutputProtocolKept State.FollowsProtocol
  intro s t hinv hfollows h
  cases hs : s.inputs with
  | nil =>
    obtain rfl : s = t := Host.Outcome.next.inj ((step_nil s hs).symm.trans h)
    exact hfollows
  | cons e rest =>
    obtain ⟨outs, q, d, row, rfl⟩ := (stepIsTheTransitionTable s t e rest hs).1 h
    rw [trackOutputs_append, hfollows]
    exact row.trackOutputs_eq hinv

end Sys2Proof.Machine
end

section
/-! The unit conversions (R180, R181) and the sentinel they never reach (R183). Both are lines over the raw code, so
that order and step are said once, for a line; a range is the pair of values at its ends. -/

namespace Sys2Proof.Machine

open Sys2Proof

/-! ## Lines over the raw code -/

/-- `f` is the line over the raw code of slope `a` that is `b` at code 0. -/
def IsLine (f : RawCode → Rat) (a b : Rat) : Prop := ∀ m : RawCode, f m = a * m.toNat + b

namespace IsLine

variable {f : RawCode → Rat} {a b : Rat} {m n : RawCode}

/-- A rising line keeps the strict order of the codes. -/
theorem lt_of_toNat_lt (hf : IsLine f a b) (ha : 0 < a) (h : m.toNat < n.toNat) : f m < f n := by
  rw [hf m, hf n]
  gcongr

/-- A rising line keeps the order of the codes. -/
theorem le_of_toNat_le (hf : IsLine f a b) (ha : 0 < a) (h : m.toNat ≤ n.toNat) : f m ≤ f n := by
  rw [hf m, hf n]
  gcongr

/-- Between two codes `k` apart a line grows by `k` times its slope. -/
theorem sub_eq_of_toNat_eq_add (hf : IsLine f a b) {k : Nat} (h : n.toNat = m.toNat + k) :
    f n - f m = a * k := by
  rw [hf m, hf n, h]
  push_cast
  ring

end IsLine

/-! ## Humidity (R180) -/

/-- Humidity rises by 125/65536 a code, from −6. -/
theorem convH_isLine : IsLine convH (125 / 65536) (-6) := by
  intro m
  unfold convH
  ring

/-- Humidity at the least code. -/
theorem convH_zero : convH 0 = -6 := by norm_num [convH]

/-- Humidity at the greatest masked code. -/
theorem convH_greatest : convH 0xFFFC = 1949571 / 16384 := by
  have htop : (0xFFFC : RawCode).toNat = 65532 := rfl
  norm_num [convH, htop]

/-- No masked code is above 0xFFFC. -/
theorem maskH_toNat_le (raw : RawCode) : (maskH raw).toNat ≤ (0xFFFC : RawCode).toNat := by
  rw [maskH, BitVec.toNat_and]
  exact Nat.and_le_right

/-- Settles O57: the conversion is a rising line, and its values at the ends of the masked codes bound the others. -/
theorem humidityConversion : Obligations.HumidityConversion := by
  unfold Obligations.HumidityConversion
  have hrising : (0 : Rat) < 125 / 65536 := by norm_num
  refine ⟨fun m => ?formula, fun m n => convH_isLine.lt_of_toNat_lt hrising, fun raw => ⟨?lower, ?upper⟩,
    fun m n h => ?step, convH_zero, convH_greatest⟩
  case formula =>
    rw [convH_isLine m]
    ring
  case lower =>
    rw [← convH_zero]
    exact convH_isLine.le_of_toNat_le hrising (Nat.zero_le _)
  case upper =>
    rw [← convH_greatest]
    exact convH_isLine.le_of_toNat_le hrising (maskH_toNat_le raw)
  case step =>
    rw [convH_isLine.sub_eq_of_toNat_eq_add h]
    norm_num

/-! ## Temperature (R181) -/

/-- Temperature rises by 17572/6553600 a code, from −937/20. -/
theorem convT_isLine : IsLine convT (17572 / 6553600) (-937 / 20) := by
  intro r
  unfold convT
  ring

/-- Temperature at the least code. -/
theorem convT_zero : convT 0 = -937 / 20 := by norm_num [convT]

/-- Temperature at the greatest code. -/
theorem convT_greatest : convT 0xFFFF = 42227243 / 327680 := by
  have htop : (0xFFFF : RawCode).toNat = 65535 := rfl
  norm_num [convT, htop]

/-- Settles O58: the conversion is a rising line, and its values at the ends of all codes bound the others. -/
theorem temperatureConversion : Obligations.TemperatureConversion := by
  unfold Obligations.TemperatureConversion
  have hrising : (0 : Rat) < 17572 / 6553600 := by norm_num
  refine ⟨fun r => ?formula, fun m n => convT_isLine.lt_of_toNat_lt hrising, fun r => ⟨?lower, ?upper⟩,
    fun m n h => ?step, convT_zero, convT_greatest⟩
  case formula =>
    rw [convT_isLine r]
    ring
  case lower =>
    rw [← convT_zero]
    exact convT_isLine.le_of_toNat_le hrising (Nat.zero_le _)
  case upper =>
    rw [← convT_greatest]
    exact convT_isLine.le_of_toNat_le hrising (Nat.le_of_lt_succ r.isLt)
  case step =>
    rw [convT_isLine.sub_eq_of_toNat_eq_add h]
    norm_num

/-! ## The sentinel (R183) -/

/-- No code converts to a humidity of −1: 125 does not divide 5·65536. -/
theorem convH_ne_neg_one (m : RawCode) : convH m ≠ -1 := by
  intro h
  have hm : (125 * m.toNat : Rat) = 5 * 65536 := by
    unfold convH at h
    linarith
  have hnat : 125 * m.toNat = 5 * 65536 := by exact_mod_cast hm
  omega

/-- No code converts to a temperature of −1: 4393 does not divide 75120640. -/
theorem convT_ne_neg_one (r : RawCode) : convT r ≠ -1 := by
  intro h
  have hr : (4393 * r.toNat : Rat) = 75120640 := by
    unfold convT at h
    linarith
  have hnat : 4393 * r.toNat = 75120640 := by exact_mod_cast hr
  omega

/-- The mask clears a bit of 0xFFFF. -/
theorem maskH_ne_allOnes (raw : RawCode) : maskH raw ≠ 0xFFFF := by
  intro h
  have hle := maskH_toNat_le raw
  rw [h] at hle
  exact absurd hle (by decide)

namespace ReportedCpl

variable {p : Params} {c : Completion}

/-- A record of a measurement has the sentinel's value exactly when the measurement was not a success. -/
theorem value_eq_neg_one_iff (hc : ReportedCpl p c) (hop : c.op = 0x3 ∨ c.op = 0x4) (hill : c.status ≠ .illegal) :
    c.value = -1 ↔ c.status ≠ .ok := by
  cases hc with
  | init => exact absurd hop (by decide)
  | byteResult op data hmem =>
    have hother : ∀ o ∈ [opReadUserReg, opReadDeviceId, opCrcUpdate, opCrcCompute16], ¬ (o = 0x3 ∨ o = 0x4) := by
      decide
    exact absurd hop (hother op hmem)
  | humidity raw => exact iff_of_false (convH_ne_neg_one _) (absurd rfl)
  | temperature raw => exact iff_of_false (convT_ne_neg_one raw) (absurd rfl)
  | failed op st hok => exact iff_of_true (if_pos hop) hok
  | illegal w => exact absurd rfl hill

/-- Under MASKED a humidity success does not report the raw code of a failure. -/
theorem raw_ne_of_masked (hc : ReportedCpl p c) (hop : c.op = 0x3) (hok : c.status = .ok)
    (hmasked : p.humRawReport = .masked) : c.raw ≠ 0xFFFF := by
  cases hc with
  | init | byteResult => exact nofun
  | humidity raw =>
    rw [hmasked]
    exact maskH_ne_allOnes raw
  | temperature raw =>
    have hother : opReadTemperature ≠ 0x3 := by decide
    exact absurd hop hother
  | failed op st hst => exact absurd hok hst
  | illegal => exact nofun

end ReportedCpl

/-- Settles O36: by the record; an injective representation tells −1 from the other values as the exact one does. -/
theorem sentinelUnambiguous : Obligations.SentinelUnambiguous := by
  unfold Obligations.SentinelUnambiguous
  intro s t new c h ht hmem
  cases (step_emits h).emittable ht hmem with
  | cpl hc =>
    exact ⟨hc.value_eq_neg_one_iff, hc.raw_ne_of_masked,
      fun V repr hinj hop hill => hinj.eq_iff.trans (hc.value_eq_neg_one_iff hop hill)⟩

end Sys2Proof.Machine
end

section
/-! The obligations of the spec's chapter on exceptions (60_exceptions.md): which events the model faults on (R144,
R206), and how a reported failure ends its request (R203, R207). -/

namespace Sys2Proof.Machine

open Sys2Proof

/-! ## The environment's contract (R53, R144, R206) -/

/-- A bus completion keeps the contract where a read length is expected and a success has it. -/
theorem Event.keepsContract_busDone_iff (q : SeqState) (ok : Bool) (rdata : List Byte) :
    Event.keepsContract q (.busDone ok rdata) = true ↔
      ∃ n, q.readLen = some n ∧ (ok = true → rdata.length = n) := by
  unfold Event.keepsContract
  cases q.readLen with
  | none => simp
  | some n => cases ok <;> simp

/-- An event is answered exactly where it keeps the contract. -/
theorem consume_next_iff_keepsContract (e : Event) (s : State) :
    (∃ t, consume e s = .next t) ↔ e.keepsContract s.seqState = true := by
  cases e with
  | hostReq w =>
    obtain ⟨t, ht, -⟩ := hostRequest_effect w s
    exact iff_of_true ⟨t, ht⟩ rfl
  | busDone ok rdata =>
    rw [Event.keepsContract_busDone_iff]
    constructor
    · rintro ⟨t, ht⟩
      obtain ⟨n, hn, hl, -⟩ := (busCompletion_next_iff ok rdata s t).1 ht
      exact ⟨n, hn, hl⟩
    · rintro ⟨n, hn, hl⟩
      exact ⟨_, (busCompletion_next_iff ok rdata s _).2 ⟨n, hn, hl, rfl⟩⟩
  | timerExpired p =>
    simp [consume, timerExpiry_next_iff, Event.keepsContract, SeqState.timerArmed]

/-- No event is refused: it is answered, or the model faults on it. -/
theorem consume_next_or_fault (e : Event) (s : State) :
    (∃ t, consume e s = .next t) ∨ ∃ f, consume e s = .fault f := by
  cases e with
  | hostReq w =>
    obtain ⟨t, ht, -⟩ := hostRequest_effect w s
    exact .inl ⟨t, ht⟩
  | busDone ok rdata =>
    simp only [consume, busCompletion]
    split
    · exact .inr ⟨_, rfl⟩
    · split
      · exact .inr ⟨_, rfl⟩
      · exact .inl ⟨_, rfl⟩
  | timerExpired p =>
    simp only [consume, timerExpiry]
    split
    · exact .inl ⟨_, rfl⟩
    · exact .inr ⟨_, rfl⟩

/-- The model faults on an event exactly where it does not answer it. -/
theorem consume_fault_iff_not_next (e : Event) (s : State) :
    (∃ f, consume e s = .fault f) ↔ ¬ ∃ t, consume e s = .next t := by
  constructor
  · rintro ⟨f, hf⟩ ⟨t, ht⟩
    exact nomatch hf.symm.trans ht
  · exact (consume_next_or_fault e s).resolve_left

/-- Settles O31: the events that keep the contract are answered, and the model faults on the others. -/
theorem faultExactlyOnContractBreach : Obligations.FaultExactlyOnContractBreach := by
  unfold Obligations.FaultExactlyOnContractBreach
  intro s e rest hs
  have hnext := consume_next_iff_keepsContract e (s.takeInput rest)
  rw [step_cons s e rest hs, consume_fault_iff_not_next, hnext]
  exact ⟨iff_of_eq (Bool.not_eq_true _), Iff.rfl⟩

/-! ## Reported failures (R203, R207) -/

/-- A record with one of the two statuses of an error entry. -/
def Completion.ReportsFailure (c : Completion) : Prop := c.status = .busError ∨ c.status = .dataCorruption

/-- A row that reports a failure emits that record alone, ends in IDLE and leaves INIT_DONE as it was. -/
theorem TableRow.failure_ends {p : Params} {q q' : SeqState} {d d' : Bool} {e : Event} {outs : List Output}
    {c : Completion} (row : TableRow p q d e outs q' d') (hc : .cpl c ∈ outs) (hfail : c.ReportsFailure) :
    outs = [.cpl c] ∧ q' = .idle ∧ d' = d := by
  cases row with
  | userRegFail | idSeq1Fail | idSeq2Fail | humCommandFail | humReadFail | tempFail =>
    exact ⟨by rw [List.mem_singleton.1 hc], rfl, rfl⟩
  | idSeq1Corrupt | idSeq2Corrupt | humReadCorrupt => exact ⟨by rw [List.mem_singleton.1 hc], rfl, rfl⟩
  | userReg | deviceId | humidity | temperature | idSeq1Pass | humCommandOk | settled =>
    exact nomatch List.mem_singleton.1 hc
  | initFirst | initAgain | crcUpdate | crcCompute16 | illegal | userRegOk | idSeq2Pass | humReadOk | tempOk |
    userRegBusy | deviceIdBusy | humidityBusy | temperatureBusy |
    userRegNotInit | deviceIdNotInit | humidityNotInit | temperatureNotInit =>
    obtain rfl : c = _ := by simpa using hc
    exact absurd hfail (by simp [Completion.ReportsFailure])

/-- Settles O37: the step that consumes the event is a row of the table, and the row reports the failure. -/
theorem failureEndsTheRequest : Obligations.FailureEndsTheRequest := by
  unfold Obligations.FailureEndsTheRequest
  intro s t new c h hout hc hfail
  cases hs : s.inputs with
  | nil =>
    obtain rfl : s = t := Host.Outcome.next.inj ((step_nil s hs).symm.trans h)
    obtain rfl : new = [] := List.self_eq_append_right.1 hout
    exact nomatch hc
  | cons e rest =>
    obtain ⟨outs, q, d, row, rfl⟩ := (stepIsTheTransitionTable s t e rest hs).1 h
    obtain rfl : outs = new := List.append_cancel_left hout
    obtain ⟨houts, hq, hd⟩ := row.failure_ends hc hfail
    exact ⟨houts, hq, hd, rfl⟩

end Sys2Proof.Machine
end

section
/-! The obligations of the spec's chapter on reset and hazards (70_reset_and_hazards.md): what a reset leaves (R230),
that a late event meets IDLE and faults (R230, R144), the settle gate (R233) and the absence of a timeout (R236). -/

namespace Sys2Proof.Machine

open Sys2Proof

/-! ## Reset (R230) -/

/-- Settles O45: at reset the block is in IDLE before INIT and has emitted nothing. -/
theorem resetMeetsInvariants : Obligations.ResetMeetsInvariants := by
  unfold Obligations.ResetMeetsInvariants
  exact ⟨absurd rfl, rfl, nofun, rfl⟩

/-- Settles O59: by the fields of the two reset states. -/
theorem resetValues : Obligations.ResetValues := by
  unfold Obligations.ResetValues
  exact ⟨rfl, rfl, rfl, rfl, fun s b => ⟨rfl, rfl, rfl, rfl, rfl, rfl, rfl⟩⟩

/-- In IDLE nothing is outstanding, so only a host request keeps the environment's contract. -/
@[simp] theorem Event.keepsContract_idle (e : Event) : e.keepsContract .idle = e.isHostReq := by
  cases e <;> rfl

/-- Settles O60: the event breaks the contract of IDLE, and a fault leaves what R144 says. -/
theorem lateEventAfterResetFaults : Obligations.LateEventAfterResetFaults := by
  unfold Obligations.LateEventAfterResetFaults
  intro s b e rest hs he
  have hbreach : e.keepsContract (s.afterReset b).seqState = false := e.keepsContract_idle.trans he
  obtain ⟨f, hf⟩ := (faultExactlyOnContractBreach (s.afterReset b) e rest hs).1.2 hbreach
  obtain ⟨e', rest', hs', hafter⟩ := step_fault_after hf
  obtain ⟨-, rfl⟩ := List.cons.inj (hs.symm.trans hs')
  exact ⟨f, hf, hafter⟩

/-! ## The settle gate (R233) -/

namespace TableRow

variable {p : Params} {q q' : SeqState} {d d' : Bool} {e : Event} {outs : List Output}

/-- The 3-byte humidity read stands in the row of the settle delay's end alone (R154). -/
theorem settled_of_humRead (row : TableRow p q d e outs q' d')
    (h : .busReq [⟨p.slaveAddr, .read, 3, true, []⟩] ∈ outs) :
    q = .humWaitSettle ∧ ∃ payload, e = .timerExpired payload := by
  cases row with
  | settled d payload => exact ⟨rfl, payload, rfl⟩
  | _ => simp at h

/-- The timer is armed in the row of the written humidity command alone (R153). -/
theorem humCommandOk_of_timerStart {ms : Nat} {payload : Payload} (row : TableRow p q d e outs q' d')
    (h : .timerStart ms payload ∈ outs) :
    ms = 25 ∧ payload = .ctxHum ∧ q = .humCmdSent ∧ e = .busDone true [] := by
  cases row with
  | humCommandOk d =>
    obtain ⟨hms, hpayload⟩ := Output.timerStart.inj (List.mem_singleton.1 h)
    exact ⟨hms, hpayload, rfl, rfl⟩
  | _ => simp at h

end TableRow

/-- Settles O38: the step that consumes the event is a row of the table, and one row holds each of the two outputs. -/
theorem settleGate : Obligations.SettleGate := by
  unfold Obligations.SettleGate
  intro s t new h hout
  cases hs : s.inputs with
  | nil =>
    obtain rfl : s = t := Host.Outcome.next.inj ((step_nil s hs).symm.trans h)
    obtain rfl : new = [] := List.self_eq_append_right.1 hout
    exact ⟨nofun, nofun⟩
  | cons e rest =>
    obtain ⟨outs, q, d, row, rfl⟩ := (stepIsTheTransitionTable s t e rest hs).1 h
    obtain rfl : outs = new := List.append_cancel_left hout
    refine ⟨fun hread => ?_, fun ms payload hstart => ?_⟩
    · obtain ⟨hq, payload, rfl⟩ := row.settled_of_humRead hread
      exact ⟨hq, payload, rest, rfl⟩
    · obtain ⟨hms, hpayload, hq, rfl⟩ := row.humCommandOk_of_timerStart hstart
      exact ⟨hms, hpayload, hq, rest, rfl⟩

/-! ## No timeout (R236) -/

/-- A host request leaves a request in flight in its stage. -/
theorem EventEffect.seqState_eq_of_hostReq {s t : State} {w : ReqWord} (h : EventEffect s (.hostReq w) t)
    (hq : s.seqState ≠ .idle) : t.seqState = s.seqState := by
  cases h with
  | completed | firstInit => rfl
  | accepted _ xs q hi => exact absurd hi hq

/-- Settles O48, by induction on the requests to come: each of them leaves SEQ_STATE and BUF alone. -/
theorem noTimeout : Obligations.NoTimeout := by
  unfold Obligations.NoTimeout
  intro ws
  induction ws with
  | nil =>
    intro s t hq hs hrun
    obtain rfl : s = t := Host.Outcome.next.inj hrun
    exact ⟨rfl, rfl, hs⟩
  | cons w ws ih =>
    intro s t hq hs hrun
    obtain ⟨u, hu, hrun'⟩ := runSteps_succ_next hrun
    have eff := step_effect hs hu
    have hseq : u.seqState = s.seqState := eff.seqState_eq_of_hostReq hq
    have hbuf : u.buf = s.buf := eff.buf_eq nofun
    obtain ⟨-, -, hinputs⟩ := eff.frame
    obtain ⟨hseq', hbuf', hnil⟩ := ih u t (hseq ▸ hq) hinputs hrun'
    exact ⟨hseq'.trans hseq, hbuf'.trans hbuf, hnil⟩

end Sys2Proof.Machine
end

section
/-! O21, O22, O51 and O52: the checksum engine on bytes (40_checksum.md). One shift loses nothing (R100), so an update is
injective in BYTE; the corner cases of R102 and the appended check byte of R104 follow. Then the two CRC operations
(R102, R103). -/

namespace Sys2Proof.Machine

open Sys2Proof

/-! ## One shift and one update as maps of bytes (R100, R102) -/

/-- The constant term of P puts the bit shifted out into bit 0. -/
theorem getLsbD_zero_crcShift (r : Byte) : (crcShift r).getLsbD 0 = r.getLsbD 7 := by
  unfold crcShift
  split
  next h => rw [h]; simp [Config.crcPoly]
  next h => rw [Bool.eq_false_of_not_eq_true h]; simp

/-- Bit 0 after a shift tells whether P was subtracted; with P put back, the shift loses only the top bit, which is
that same bit 0. -/
theorem crcShift_injective : Function.Injective crcShift := by
  intro a b h
  have htop : a.getLsbD 7 = b.getLsbD 7 := by
    rw [← getLsbD_zero_crcShift a, h, getLsbD_zero_crcShift]
  have hshift : a <<< 1 = b <<< 1 := by
    unfold crcShift at h
    rw [htop] at h
    split at h
    · exact (BitVec.xor_left_inj _).1 h
    · exact h
  apply BitVec.eq_of_getLsbD_eq
  intro i hi
  by_cases h7 : i = 7
  · rw [h7, htop]
  · have hbit := congrArg (fun v : Byte => v.getLsbD (i + 1)) hshift
    have hlt : i + 1 < 8 := by omega
    simpa [hlt, BitVec.getLsbD_eq_getElem hi] using hbit

theorem crcShifts_injective (n : Nat) : Function.Injective (crcShifts n) := by
  induction n with
  | zero => exact Function.injective_id
  | succ n ih => exact ih.comp crcShift_injective

/-- An update reads STATE and BYTE only in their sum. -/
theorem crc8Update_eq_zero_seed (s b : Byte) : crc8Update s b = crc8Update 0x00 (s ^^^ b) := by
  simp [crc8Update]

@[simp] theorem crc8Update_self (s : Byte) : crc8Update s s = 0 := by
  rw [crc8Update_eq_zero_seed, BitVec.xor_self]
  rfl

theorem crc8Update_injective (s : Byte) : Function.Injective (crc8Update s) :=
  (crcShifts_injective 8).comp fun _ _ h => (BitVec.xor_right_inj s).1 h

theorem crc8Update_eq_zero_iff (s b : Byte) : crc8Update s b = 0 ↔ s = b := by
  rw [← crc8Update_self s, (crc8Update_injective s).eq_iff, eq_comm]

/-- Settles O51: an update is injective in BYTE, there are finitely many bytes, and BYTE = STATE gives 0. -/
theorem crcUpdateCornerCases : Obligations.CrcUpdateCornerCases := by
  unfold Obligations.CrcUpdateCornerCases
  exact ⟨crc8Update_eq_zero_iff, crc8Update_eq_zero_seed,
    fun s => Finite.injective_iff_bijective.1 (crc8Update_injective s)⟩

/-! ## The check byte appended (R101, R104) -/

/-- Settles O52: the last update gives zero exactly when the checksum so far is the check byte. -/
theorem measurementCheckAppended : Obligations.MeasurementCheckAppended := by
  unfold Obligations.MeasurementCheckAppended
  refine ⟨compute16_be16, fun b0 b1 c => ?_⟩
  calc checkMeasurement b0 b1 c = true
      ↔ compute16 (be16 b0 b1) = c := checkMeasurement_iff b0 b1 c
    _ ↔ crc8Update (crc8Update 0x00 b0) b1 = c := by rw [compute16_be16, Config.crcInit]
    _ ↔ crc8Update (crc8Update (crc8Update 0x00 b0) b1) c = 0 := (crc8Update_eq_zero_iff _ c).symm

/-! ## The two CRC operations (R102, R103) -/

theorem exec_crcUpdate (state byte : Byte) (s : State) :
    exec (.crcUpdate state byte) s = .next (s.complete (byteCpl opCrcUpdate (crc8Update state byte))) := rfl

theorem exec_crcCompute16 (value : RawCode) (s : State) :
    exec (.crcCompute16 value) s = .next (s.complete (byteCpl opCrcCompute16 (compute16 value))) := rfl

/-- Settles O21: the completion is appended to the outputs and no field is written besides. -/
theorem crcUpdateCompletes : Obligations.CrcUpdateCompletes := by
  unfold Obligations.CrcUpdateCompletes
  exact exec_crcUpdate

/-- Settles O22: the completion carries compute16 of the value, high byte first from the zero seed. -/
theorem crcCompute16Completes : Obligations.CrcCompute16Completes := by
  unfold Obligations.CrcCompute16Completes
  exact exec_crcCompute16

end Sys2Proof.Machine
end

section
/-! O50: the polynomial reading of R100. A byte is a polynomial of degree below 8, so the checksum is the remainder as
soon as the two agree in GF(2)[x]/P; there one shift is multiplication by x, and an update by x⁸. -/

namespace Sys2Proof

open Polynomial Machine

namespace Gf2

/-! ## Bytes as polynomials -/

/-- Beyond bit 7 both sides are 0. -/
@[simp] theorem coeff_ofByte (b : Byte) (i : Nat) : (ofByte b).coeff i = if b.getLsbD i then 1 else 0 := by
  have hterm (j : Nat) : (if b.getLsbD j then X ^ j else 0 : (ZMod 2)[X]).coeff i =
      if i = j then (if b.getLsbD j then 1 else 0) else 0 := by
    split <;> simp [coeff_X_pow]
  simp only [ofByte, finsetSum_coeff, hterm, Finset.sum_ite_eq, Finset.mem_range]
  by_cases hi : i < 8
  · rw [if_pos hi]
  · rw [if_neg hi, BitVec.getLsbD_of_ge b i (by omega)]
    rfl

/-- Addition over GF(2) is the exclusive or of the bits. -/
theorem ofByte_xor (a b : Byte) : ofByte (a ^^^ b) = ofByte a + ofByte b := by
  ext i
  cases ha : a.getLsbD i <;> cases hb : b.getLsbD i <;> simp [ha, hb, CharTwo.add_self_eq_zero]

/-- A shift multiplies by x and drops x⁸: seven terms move up by one, bit 0 is clear, bit 7 is the term dropped. -/
theorem ofByte_shiftLeft_add (r : Byte) :
    ofByte (r <<< 1) + (if r.getLsbD 7 then X ^ 8 else 0) = ofByte r * X := by
  have hlow : ofByte (r <<< 1) = ∑ i ∈ Finset.range 7, (if r.getLsbD i then X ^ i else 0) * X := by
    rw [ofByte, Finset.sum_range_succ', if_neg (by simp), add_zero]
    refine Finset.sum_congr rfl fun i hi => ?_
    have hlt : i + 1 < 8 := Nat.succ_lt_succ (Finset.mem_range.1 hi)
    have hbit : (r <<< 1).getLsbD (i + 1) = r.getLsbD i := by
      simp [hlt, BitVec.getLsbD_eq_getElem (Nat.lt_of_succ_lt hlt)]
    rw [hbit, ite_mul, pow_succ, zero_mul]
  rw [hlow, ← Finset.sum_mul, ofByte, Finset.sum_range_succ _ 7, add_mul, ite_mul, ← pow_succ, zero_mul]

theorem ofByte_crcPoly : ofByte Config.crcPoly = X ^ 5 + X ^ 4 + 1 := by
  calc ofByte Config.crcPoly
      = 1 + X ^ 4 + X ^ 5 := by simp [ofByte, Finset.sum_range_succ, Config.crcPoly]
    _ = X ^ 5 + X ^ 4 + 1 := by ring

theorem degree_ofByte_lt (b : Byte) : (ofByte b).degree < 8 :=
  (degree_lt_iff_coeff_zero _ 8).2 fun i hi => by simp [BitVec.getLsbD_of_ge b i hi]

/-! ## The modulus -/

theorem degree_modulus : modulus.degree = 8 := by
  unfold modulus
  compute_degree!

theorem monic_modulus : modulus.Monic := by
  unfold modulus
  monicity!

/-- A byte is the remainder of every polynomial in its residue class. -/
theorem ofByte_eq_modByMonic {b : Byte} {f : (ZMod 2)[X]}
    (h : AdjoinRoot.mk modulus (ofByte b) = AdjoinRoot.mk modulus f) : ofByte b = f %ₘ modulus := by
  have hself : ofByte b %ₘ modulus = ofByte b :=
    (modByMonic_eq_self_iff monic_modulus).2 (degree_modulus ▸ degree_ofByte_lt b)
  rw [← hself]
  exact modByMonic_eq_of_dvd_sub monic_modulus (AdjoinRoot.mk_eq_mk.1 h)

/-! ## The shift register modulo P -/

/-- The bit shifted out stands for x⁸, so subtracting P is dropping it and adding the polynomial of 0x31. -/
theorem ofByte_crcShift_add (r : Byte) :
    ofByte (crcShift r) + (if r.getLsbD 7 then modulus else 0) = ofByte r * X := by
  rw [← ofByte_shiftLeft_add]
  unfold crcShift
  split
  · rw [ofByte_xor, ofByte_crcPoly, modulus]
    linear_combination CharTwo.add_self_eq_zero (X ^ 5 + X ^ 4 + 1 : (ZMod 2)[X])
  · rfl

theorem mk_ofByte_crcShift (r : Byte) :
    AdjoinRoot.mk modulus (ofByte (crcShift r)) = AdjoinRoot.mk modulus (ofByte r * X) := by
  rw [← ofByte_crcShift_add, map_add]
  split <;> simp

theorem mk_ofByte_crcShifts (n : Nat) (r : Byte) :
    AdjoinRoot.mk modulus (ofByte (crcShifts n r)) = AdjoinRoot.mk modulus (ofByte r * X ^ n) := by
  induction n generalizing r with
  | zero => simp [crcShifts]
  | succ n ih =>
    rw [crcShifts, ih, map_mul, mk_ofByte_crcShift, ← map_mul, mul_assoc, pow_succ']

/-- R100's one-byte form: ((s ⊕ b)·x⁸) mod P. -/
theorem mk_ofByte_crc8Update (s b : Byte) :
    AdjoinRoot.mk modulus (ofByte (crc8Update s b)) = AdjoinRoot.mk modulus ((ofByte s + ofByte b) * X ^ 8) := by
  rw [crc8Update, mk_ofByte_crcShifts, ofByte_xor]

/-- R100's chained form. -/
theorem mk_ofByte_foldl_crc8Update (seed : Byte) (msg : List Byte) :
    AdjoinRoot.mk modulus (ofByte (msg.foldl crc8Update seed)) =
      AdjoinRoot.mk modulus (ofByte seed * X ^ (8 * msg.length) + ofBytes msg * X ^ 8) := by
  induction msg generalizing seed with
  | nil => simp [ofBytes]
  | cons b rest ih =>
    rw [List.foldl_cons, ih, map_add, map_mul, mk_ofByte_crc8Update, ← map_mul, ← map_add, ofBytes, List.length_cons]
    exact congrArg _ (by ring)

end Gf2

/-- Settles O50: by induction on the message the two agree modulo P, and a byte is its own remainder. -/
theorem crcIsPolynomialRemainder : Obligations.CrcIsPolynomialRemainder := by
  unfold Obligations.CrcIsPolynomialRemainder
  exact fun seed msg => Gf2.ofByte_eq_modByMonic (Gf2.mk_ofByte_foldl_crc8Update seed msg)

end Sys2Proof
end
